-- ==== Sys2Proof/Word.lean ====
section
/-! DEFINITION. The word types of the machine: 32-bit words, bytes and register numbers. -/

namespace Sys2Proof

/-- A 32-bit word: a general register, an element, an address, an instruction (R8, R12). -/
abbrev Word := BitVec 32

/-- One byte of memory (R60). -/
abbrev Byte := BitVec 8

/-- The 5-bit number of a CPU general register (R20). -/
abbrev Reg := BitVec 5

/-- The 5-bit number of a vector register (R26). -/
abbrev VReg := BitVec 5

end Sys2Proof
end

