-- ==== Sys2Proof/Config.lean ====
section
/-! DEFINITION. What an implementation fixes (R11), the values the model chooses where the spec
gives none, and the free values, which nothing in Lean can evaluate. -/

namespace Sys2Proof

/-- `NVREG` (R9, D2): the number of vector registers of T0. -/
abbrev Config.nvreg : Nat := 16

/-- `MVL` (R10, D2): the number of elements of a vector register. -/
abbrev Config.mvl : Nat := 32

/-- An element number of a vector register. -/
abbrev Elem := Fin Config.mvl

/-- `VREV_IMP` (R31): implementation number 0 is T0. -/
abbrev Config.vrevImp : BitVec 8 := 0

/-- `VREV_REV` (R11, R31): the mask revision is left open by the spec, so it is a free constant. -/
opaque Config.vrevRev : BitVec 8

/-- The free values: draw number `n` of the values the spec leaves open (U8, U12, U13, U18, U23). -/
opaque Config.freeWord : Nat → Word

/-- `RESET_PC` (R11, R49) is open; the machine after reset starts at this address.
DESIGN CHOICE (log entry 4), marked 'unsafe'. -/
abbrev Config.resetPc : Word := 0

/-- What a byte of memory that nothing has written reads as. DESIGN CHOICE (log entry 6), marked
'unsafe'. -/
abbrev Config.fillByte : Byte := 0

/-- `T0_CFG_LAYOUT` (R11, R401): which bit of the configuration word holds each bit of each T0-only
field, lowest bit of the field first. Figure 10 is lost, so the map is a parameter. -/
structure T0Layout where
  lufunc : Vector (Fin 32) 4
  shlza : Fin 32
  shlv : Fin 32
  au : Fin 32
  bu : Fin 32
  shrv : Fin 32
  sepsham : Fin 32
  shram : Vector (Fin 32) 5
  shrl : Fin 32
  lures : Fin 32
  noclip : Fin 32
  wcond : Vector (Fin 32) 3
  deriving DecidableEq, Repr

/-- One range of backed byte addresses: `size` bytes from `base`. -/
structure BackedRange where
  base : Nat
  size : Nat
  deriving DecidableEq, Repr

/-- The open parameters of R11, constant for a run: no instruction changes them. The defaults are
the ones the spec recommends or takes. -/
structure Params where
  /-- `BIG_ENDIAN` (R64, D3), recommended default true. -/
  bigEndian : Bool := true
  /-- `HAS_FPU` (R236, D21), default false. -/
  hasFpu : Bool := false
  /-- `NEEDS_SYNC` (R74, D18): this spec takes true. -/
  needsSync : Bool := true
  /-- `MemMap` (R62, R437, D29): the backed byte addresses; the default backs all 2^32. -/
  backed : List BackedRange := [⟨0, 2 ^ 32⟩]
  /-- `T0_CFG_LAYOUT` (R401, D23): with none, the architectural rules of file 47 apply. -/
  t0 : Option T0Layout := none
  deriving DecidableEq, Repr

end Sys2Proof
end

