-- ==== Sys2Proof/Syntax.lean ====
section
/-! DEFINITION. The instructions of the machine: one constructor per row of the opcode table, operands in
assembly order (R117 for the vector unit, R122 to R230 for the scalar annex). -/

namespace Sys2Proof

/-- An instruction. Register operands are the 5-bit register numbers of the encoding; immediates,
offsets, targets and code fields are the bits of the word (R91, R97). -/
inductive Instr where
  -- Scalar computational instructions (file 40)
  /-- `add`, R122. -/
  | add (rd rs rt : Reg)
  /-- `addu`, R123. -/
  | addu (rd rs rt : Reg)
  /-- `sub`, R124. -/
  | sub (rd rs rt : Reg)
  /-- `subu`, R125. -/
  | subu (rd rs rt : Reg)
  /-- `and`, R126. -/
  | and (rd rs rt : Reg)
  /-- `or`, R127. -/
  | or (rd rs rt : Reg)
  /-- `xor`, R128. -/
  | xor (rd rs rt : Reg)
  /-- `nor`, R129. -/
  | nor (rd rs rt : Reg)
  /-- `slt`, R130. -/
  | slt (rd rs rt : Reg)
  /-- `sltu`, R131. -/
  | sltu (rd rs rt : Reg)
  /-- `sll`, R132. -/
  | sll (rd rt : Reg) (sa : BitVec 5)
  /-- `srl`, R133. -/
  | srl (rd rt : Reg) (sa : BitVec 5)
  /-- `sra`, R134. -/
  | sra (rd rt : Reg) (sa : BitVec 5)
  /-- `sllv`, R135. -/
  | sllv (rd rt rs : Reg)
  /-- `srlv`, R136. -/
  | srlv (rd rt rs : Reg)
  /-- `srav`, R137. -/
  | srav (rd rt rs : Reg)
  /-- `addi`, R138. -/
  | addi (rt rs : Reg) (imm : BitVec 16)
  /-- `addiu`, R139. -/
  | addiu (rt rs : Reg) (imm : BitVec 16)
  /-- `slti`, R140. -/
  | slti (rt rs : Reg) (imm : BitVec 16)
  /-- `sltiu`, R141. -/
  | sltiu (rt rs : Reg) (imm : BitVec 16)
  /-- `andi`, R142. -/
  | andi (rt rs : Reg) (imm : BitVec 16)
  /-- `ori`, R143. -/
  | ori (rt rs : Reg) (imm : BitVec 16)
  /-- `xori`, R144. -/
  | xori (rt rs : Reg) (imm : BitVec 16)
  /-- `lui`, R145. -/
  | lui (rt : Reg) (imm : BitVec 16)
  /-- `mult`, R146. -/
  | mult (rs rt : Reg)
  /-- `multu`, R147. -/
  | multu (rs rt : Reg)
  /-- `div`, R148. -/
  | div (rs rt : Reg)
  /-- `divu`, R149. -/
  | divu (rs rt : Reg)
  /-- `mfhi`, R150. -/
  | mfhi (rd : Reg)
  /-- `mthi`, R151. -/
  | mthi (rs : Reg)
  /-- `mflo`, R152. -/
  | mflo (rd : Reg)
  /-- `mtlo`, R153. -/
  | mtlo (rs : Reg)
  -- Scalar memory, control flow, traps and generic coprocessor rows (file 41)
  /-- `lb`, R163. -/
  | lb (rt : Reg) (offset : BitVec 16) (base : Reg)
  /-- `lbu`, R164. -/
  | lbu (rt : Reg) (offset : BitVec 16) (base : Reg)
  /-- `lh`, R165. -/
  | lh (rt : Reg) (offset : BitVec 16) (base : Reg)
  /-- `lhu`, R166. -/
  | lhu (rt : Reg) (offset : BitVec 16) (base : Reg)
  /-- `lw`, R167. -/
  | lw (rt : Reg) (offset : BitVec 16) (base : Reg)
  /-- `lwl`, R168. -/
  | lwl (rt : Reg) (offset : BitVec 16) (base : Reg)
  /-- `lwr`, R169. -/
  | lwr (rt : Reg) (offset : BitVec 16) (base : Reg)
  /-- `sb`, R170. -/
  | sb (rt : Reg) (offset : BitVec 16) (base : Reg)
  /-- `sh`, R171. -/
  | sh (rt : Reg) (offset : BitVec 16) (base : Reg)
  /-- `sw`, R172. -/
  | sw (rt : Reg) (offset : BitVec 16) (base : Reg)
  /-- `swl`, R173. -/
  | swl (rt : Reg) (offset : BitVec 16) (base : Reg)
  /-- `swr`, R174. -/
  | swr (rt : Reg) (offset : BitVec 16) (base : Reg)
  /-- `ll`, R175. -/
  | ll (rt : Reg) (offset : BitVec 16) (base : Reg)
  /-- `sc`, R176. -/
  | sc (rt : Reg) (offset : BitVec 16) (base : Reg)
  /-- `sync`, R177. -/
  | sync
  /-- `j`, R179. -/
  | j (target : BitVec 26)
  /-- `jal`, R180. -/
  | jal (target : BitVec 26)
  /-- `jr`, R181. -/
  | jr (rs : Reg)
  /-- `jalr`, R182. -/
  | jalr (rd rs : Reg)
  /-- `beq`, R183. -/
  | beq (rs rt : Reg) (offset : BitVec 16)
  /-- `bne`, R184. -/
  | bne (rs rt : Reg) (offset : BitVec 16)
  /-- `blez`, R185. -/
  | blez (rs : Reg) (offset : BitVec 16)
  /-- `bgtz`, R186. -/
  | bgtz (rs : Reg) (offset : BitVec 16)
  /-- `bltz`, R187. -/
  | bltz (rs : Reg) (offset : BitVec 16)
  /-- `bgez`, R188. -/
  | bgez (rs : Reg) (offset : BitVec 16)
  /-- `bltzal`, R189. -/
  | bltzal (rs : Reg) (offset : BitVec 16)
  /-- `bgezal`, R190. -/
  | bgezal (rs : Reg) (offset : BitVec 16)
  /-- `beql`, R192. -/
  | beql (rs rt : Reg) (offset : BitVec 16)
  /-- `bnel`, R193. -/
  | bnel (rs rt : Reg) (offset : BitVec 16)
  /-- `blezl`, R194. -/
  | blezl (rs : Reg) (offset : BitVec 16)
  /-- `bgtzl`, R195. -/
  | bgtzl (rs : Reg) (offset : BitVec 16)
  /-- `bltzl`, R196. -/
  | bltzl (rs : Reg) (offset : BitVec 16)
  /-- `bgezl`, R197. -/
  | bgezl (rs : Reg) (offset : BitVec 16)
  /-- `bltzall`, R198. -/
  | bltzall (rs : Reg) (offset : BitVec 16)
  /-- `bgezall`, R199. -/
  | bgezall (rs : Reg) (offset : BitVec 16)
  /-- `tge`, R201. -/
  | tge (rs rt : Reg) (code : BitVec 10)
  /-- `tgeu`, R202. -/
  | tgeu (rs rt : Reg) (code : BitVec 10)
  /-- `tlt`, R203. -/
  | tlt (rs rt : Reg) (code : BitVec 10)
  /-- `tltu`, R204. -/
  | tltu (rs rt : Reg) (code : BitVec 10)
  /-- `teq`, R205. -/
  | teq (rs rt : Reg) (code : BitVec 10)
  /-- `tne`, R206. -/
  | tne (rs rt : Reg) (code : BitVec 10)
  /-- `tgei`, R207. -/
  | tgei (rs : Reg) (imm : BitVec 16)
  /-- `tgeiu`, R208. -/
  | tgeiu (rs : Reg) (imm : BitVec 16)
  /-- `tlti`, R209. -/
  | tlti (rs : Reg) (imm : BitVec 16)
  /-- `tltiu`, R210. -/
  | tltiu (rs : Reg) (imm : BitVec 16)
  /-- `teqi`, R211. -/
  | teqi (rs : Reg) (imm : BitVec 16)
  /-- `tnei`, R212. -/
  | tnei (rs : Reg) (imm : BitVec 16)
  /-- `syscall`, R213. -/
  | syscall (code : BitVec 20)
  /-- `break`, R214. -/
  | brk (code : BitVec 20)
  /-- `cop0`, R234. -/
  | cop0 (cofun : BitVec 26)
  /-- `cop1`, R236. -/
  | cop1 (cofun : BitVec 26)
  /-- `cop3`, R237. -/
  | cop3 (cofun : BitVec 26)
  /-- `lwc1`, R236. -/
  | lwc1 (rt : Reg) (offset : BitVec 16) (base : Reg)
  /-- `swc1`, R236. -/
  | swc1 (rt : Reg) (offset : BitVec 16) (base : Reg)
  /-- `ldc1`, R236. -/
  | ldc1 (rt : Reg) (offset : BitVec 16) (base : Reg)
  /-- `sdc1`, R236. -/
  | sdc1 (rt : Reg) (offset : BitVec 16) (base : Reg)
  /-- `lwc2`, R235. -/
  | lwc2 (rt : Reg) (offset : BitVec 16) (base : Reg)
  /-- `swc2`, R235. -/
  | swc2 (rt : Reg) (offset : BitVec 16) (base : Reg)
  /-- `ldc2`, R235. -/
  | ldc2 (rt : Reg) (offset : BitVec 16) (base : Reg)
  /-- `sdc2`, R235. -/
  | sdc2 (rt : Reg) (offset : BitVec 16) (base : Reg)
  /-- `lwc3`, R237. -/
  | lwc3 (rt : Reg) (offset : BitVec 16) (base : Reg)
  /-- `swc3`, R237. -/
  | swc3 (rt : Reg) (offset : BitVec 16) (base : Reg)
  /-- `mfc2`, R235. -/
  | mfc2 (low : BitVec 21)
  /-- `mtc2`, R235. -/
  | mtc2 (low : BitVec 21)
  /-- `bc2f`, R235. -/
  | bc2f (offset : BitVec 16)
  /-- `bc2t`, R235. -/
  | bc2t (offset : BitVec 16)
  /-- `bc2fl`, R235. -/
  | bc2fl (offset : BitVec 16)
  /-- `bc2tl`, R235. -/
  | bc2tl (offset : BitVec 16)
  -- Vector unit control register moves (file 42)
  /-- `cfvu`, R241. -/
  | cfvu (rt : Reg) (cs : BitVec 5)
  /-- `ctvu`, R242. -/
  | ctvu (rt : Reg) (cs : BitVec 5)
  -- Vector insert and extract (file 43)
  /-- `vext.v`, R251. -/
  | vextV (vd vt : VReg) (rd : Reg)
  /-- `vins.s`, R252. -/
  | vinsS (rt : Reg) (vd : VReg) (rd : Reg)
  /-- `vext.s`, R253. -/
  | vextS (rt : Reg) (vd : VReg) (rd : Reg)
  -- Vector loads and stores (file 44)
  /-- `lbai.v`, R265. -/
  | lbaiV (vd : VReg) (rd rt : Reg)
  /-- `lhai.v`, R266. -/
  | lhaiV (vd : VReg) (rd rt : Reg)
  /-- `lwai.v`, R267. -/
  | lwaiV (vd : VReg) (rd rt : Reg)
  /-- `lbuai.v`, R268. -/
  | lbuaiV (vd : VReg) (rd rt : Reg)
  /-- `lhuai.v`, R269. -/
  | lhuaiV (vd : VReg) (rd rt : Reg)
  /-- `lbx.v`, R270. -/
  | lbxV (vd : VReg) (rd : Reg) (vt : VReg)
  /-- `lhx.v`, R271. -/
  | lhxV (vd : VReg) (rd : Reg) (vt : VReg)
  /-- `lwx.v`, R272. -/
  | lwxV (vd : VReg) (rd : Reg) (vt : VReg)
  /-- `lbux.v`, R273. -/
  | lbuxV (vd : VReg) (rd : Reg) (vt : VReg)
  /-- `lhux.v`, R274. -/
  | lhuxV (vd : VReg) (rd : Reg) (vt : VReg)
  /-- `lbst.v`, R275. -/
  | lbstV (vd : VReg) (rd rt : Reg)
  /-- `lhst.v`, R276. -/
  | lhstV (vd : VReg) (rd rt : Reg)
  /-- `lwst.v`, R277. -/
  | lwstV (vd : VReg) (rd rt : Reg)
  /-- `lbust.v`, R278. -/
  | lbustV (vd : VReg) (rd rt : Reg)
  /-- `lhust.v`, R279. -/
  | lhustV (vd : VReg) (rd rt : Reg)
  /-- `sbai.v`, R280. -/
  | sbaiV (vd : VReg) (rd rt : Reg)
  /-- `shai.v`, R281. -/
  | shaiV (vd : VReg) (rd rt : Reg)
  /-- `swai.v`, R282. -/
  | swaiV (vd : VReg) (rd rt : Reg)
  /-- `sbx.v`, R283. -/
  | sbxV (vd : VReg) (rd : Reg) (vt : VReg)
  /-- `shx.v`, R284. -/
  | shxV (vd : VReg) (rd : Reg) (vt : VReg)
  /-- `swx.v`, R285. -/
  | swxV (vd : VReg) (rd : Reg) (vt : VReg)
  /-- `sbst.v`, R286. -/
  | sbstV (vd : VReg) (rd rt : Reg)
  /-- `shst.v`, R287. -/
  | shstV (vd : VReg) (rd rt : Reg)
  /-- `swst.v`, R288. -/
  | swstV (vd : VReg) (rd rt : Reg)
  -- Vector integer arithmetic, logic and shifts (file 45)
  /-- `and.vv`, R302. -/
  | andVv (vw vd vt : VReg)
  /-- `and.vs`, R303. -/
  | andVs (vw vd : VReg) (rt : Reg)
  /-- `or.vv`, R304. -/
  | orVv (vw vd vt : VReg)
  /-- `or.vs`, R305. -/
  | orVs (vw vd : VReg) (rt : Reg)
  /-- `xor.vv`, R306. -/
  | xorVv (vw vd vt : VReg)
  /-- `xor.vs`, R307. -/
  | xorVs (vw vd : VReg) (rt : Reg)
  /-- `nor.vv`, R308. -/
  | norVv (vw vd vt : VReg)
  /-- `nor.vs`, R309. -/
  | norVs (vw vd : VReg) (rt : Reg)
  /-- `add.vv`, R310. -/
  | addVv (vw vd vt : VReg)
  /-- `add.vs`, R311. -/
  | addVs (vw vd : VReg) (rt : Reg)
  /-- `addu.vv`, R312. -/
  | adduVv (vw vd vt : VReg)
  /-- `addu.vs`, R313. -/
  | adduVs (vw vd : VReg) (rt : Reg)
  /-- `sub.vv`, R314. -/
  | subVv (vw vd vt : VReg)
  /-- `sub.vs`, R315. -/
  | subVs (vw vd : VReg) (rt : Reg)
  /-- `sub.sv`, R316. -/
  | subSv (vw : VReg) (rt : Reg) (vd : VReg)
  /-- `subu.vv`, R317. -/
  | subuVv (vw vd vt : VReg)
  /-- `subu.vs`, R318. -/
  | subuVs (vw vd : VReg) (rt : Reg)
  /-- `subu.sv`, R319. -/
  | subuSv (vw : VReg) (rt : Reg) (vd : VReg)
  /-- `sllv.vv`, R320. -/
  | sllvVv (vw vd vt : VReg)
  /-- `sllv.vs`, R321. -/
  | sllvVs (vw vd : VReg) (rt : Reg)
  /-- `sllv.sv`, R322. -/
  | sllvSv (vw : VReg) (rt : Reg) (vd : VReg)
  /-- `srav.vv`, R323. -/
  | sravVv (vw vd vt : VReg)
  /-- `srav.vs`, R324. -/
  | sravVs (vw vd : VReg) (rt : Reg)
  /-- `srav.sv`, R325. -/
  | sravSv (vw : VReg) (rt : Reg) (vd : VReg)
  /-- `srlv.vv`, R326. -/
  | srlvVv (vw vd vt : VReg)
  /-- `srlv.vs`, R327. -/
  | srlvVs (vw vd : VReg) (rt : Reg)
  /-- `srlv.sv`, R328. -/
  | srlvSv (vw : VReg) (rt : Reg) (vd : VReg)
  -- Vector compare, flag and conditional move (file 46)
  /-- `slt.vv`, R341. -/
  | sltVv (vw vd vt : VReg)
  /-- `slt.vs`, R342. -/
  | sltVs (vw vd : VReg) (rt : Reg)
  /-- `slt.sv`, R343. -/
  | sltSv (vw : VReg) (rt : Reg) (vd : VReg)
  /-- `sltu.vv`, R344. -/
  | sltuVv (vw vd vt : VReg)
  /-- `sltu.vs`, R345. -/
  | sltuVs (vw vd : VReg) (rt : Reg)
  /-- `sltu.sv`, R346. -/
  | sltuSv (vw : VReg) (rt : Reg) (vd : VReg)
  /-- `seq.vv`, R347. -/
  | seqVv (vw vd vt : VReg)
  /-- `seq.vs`, R348. -/
  | seqVs (vw vd : VReg) (rt : Reg)
  /-- `flt.vv`, R349. -/
  | fltVv (vd vt : VReg)
  /-- `flt.vs`, R350. -/
  | fltVs (vd : VReg) (rt : Reg)
  /-- `flt.sv`, R351. -/
  | fltSv (rt : Reg) (vd : VReg)
  /-- `fltu.vv`, R352. -/
  | fltuVv (vd vt : VReg)
  /-- `fltu.vs`, R353. -/
  | fltuVs (vd : VReg) (rt : Reg)
  /-- `fltu.sv`, R354. -/
  | fltuSv (rt : Reg) (vd : VReg)
  /-- `feq.vv`, R355. -/
  | feqVv (vd vt : VReg)
  /-- `feq.vs`, R356. -/
  | feqVs (vd : VReg) (rt : Reg)
  /-- `cmvnez.vv`, R358. -/
  | cmvnezVv (vw vd vt : VReg)
  /-- `cmvgez.vv`, R359. -/
  | cmvgezVv (vw vd vt : VReg)
  /-- `cmvlez.vv`, R360. -/
  | cmvlezVv (vw vd vt : VReg)
  /-- `cmveqz.vv`, R361. -/
  | cmveqzVv (vw vd vt : VReg)
  /-- `cmvltz.vv`, R362. -/
  | cmvltzVv (vw vd vt : VReg)
  /-- `cmvgtz.vv`, R363. -/
  | cmvgtzVv (vw vd vt : VReg)
  /-- `cmvnez.vs`, R364. -/
  | cmvnezVs (vw vd : VReg) (rt : Reg)
  /-- `cmvgez.vs`, R365. -/
  | cmvgezVs (vw vd : VReg) (rt : Reg)
  /-- `cmvlez.vs`, R366. -/
  | cmvlezVs (vw vd : VReg) (rt : Reg)
  /-- `cmveqz.vs`, R367. -/
  | cmveqzVs (vw vd : VReg) (rt : Reg)
  /-- `cmvltz.vs`, R368. -/
  | cmvltzVs (vw vd : VReg) (rt : Reg)
  /-- `cmvgtz.vs`, R369. -/
  | cmvgtzVs (vw vd : VReg) (rt : Reg)
  -- Vector fixed point (file 47)
  /-- `fxadd.vv`, R386. -/
  | fxaddVv (vw vd vt : VReg) (rd : Reg)
  /-- `fxadd.vs`, R387. -/
  | fxaddVs (vw vd : VReg) (rt rd : Reg)
  /-- `fxadd.sv`, R388. -/
  | fxaddSv (vw : VReg) (rt : Reg) (vd : VReg) (rd : Reg)
  /-- `fxsub.vv`, R389. -/
  | fxsubVv (vw vd vt : VReg) (rd : Reg)
  /-- `fxsub.vs`, R390. -/
  | fxsubVs (vw vd : VReg) (rt rd : Reg)
  /-- `fxsub.sv`, R391. -/
  | fxsubSv (vw : VReg) (rt : Reg) (vd : VReg) (rd : Reg)
  /-- `fxmul.vv`, R392. -/
  | fxmulVv (vw vd vt : VReg) (rd : Reg)
  /-- `fxmul.vs`, R393. -/
  | fxmulVs (vw vd : VReg) (rt rd : Reg)
  /-- `fxmul.sv`, R394. -/
  | fxmulSv (vw : VReg) (rt : Reg) (vd : VReg) (rd : Reg)
  deriving DecidableEq, Repr

end Sys2Proof
end

