-- ==== Sys2Proof/Decode.lean ====
section
/-! DEFINITION. The encodings of file 30: the fields of a word, the formats that build a word, the
decoder (total on every word and on every string of bytes) and the encoder. -/

namespace Sys2Proof

/-! ### The fields of an instruction word (R91, R97) -/

/-- `I[31:26]`, the major opcode. -/
def opOf (w : Word) : BitVec 6 := w.extractLsb' 26 6
/-- `I[25:21]`: `rs`, `base`, the COPz sub-operation or the vector `format`. -/
def rsOf (w : Word) : BitVec 5 := w.extractLsb' 21 5
/-- `I[20:16]`: `rt`, `vt` or the REGIMM selector. -/
def rtOf (w : Word) : BitVec 5 := w.extractLsb' 16 5
/-- `I[15:11]`: `rd`, `cs` or the vector integer function code. -/
def rdOf (w : Word) : BitVec 5 := w.extractLsb' 11 5
/-- `I[10:6]`: `sa`. -/
def saOf (w : Word) : BitVec 5 := w.extractLsb' 6 5
/-- `I[5:0]`: `funct`. -/
def functOf (w : Word) : BitVec 6 := w.extractLsb' 0 6
/-- `I[15:0]`: `imm` or `offset`. -/
def immOf (w : Word) : BitVec 16 := w.extractLsb' 0 16
/-- `I[25:0]`: `target`, or the body of a coprocessor word. -/
def targetOf (w : Word) : BitVec 26 := w.extractLsb' 0 26
/-- `I[15:6]`: the code field of the trap instructions (R200). -/
def codeOf (w : Word) : BitVec 10 := w.extractLsb' 6 10
/-- `I[25:6]`: the code field of SYSCALL and BREAK (R213, R214). -/
def sysCodeOf (w : Word) : BitVec 20 := w.extractLsb' 6 20
/-- `I[20:0]`: the bits of MFC2 and MTC2 below the sub-operation (R105). -/
def lowOf (w : Word) : BitVec 21 := w.extractLsb' 0 21
/-- `I[10]`: `opers` (R99). -/
def opersOf (w : Word) : BitVec 1 := w.extractLsb' 10 1
/-- `I[9:5]`: `vw`, or the operation code of the insert/extract and memory formats. -/
def vwOf (w : Word) : BitVec 5 := w.extractLsb' 5 5
/-- `I[4:0]`: `vd`. -/
def vdOf (w : Word) : BitVec 5 := w.extractLsb' 0 5

/-! ### The formats (R91, R97) -/

/-- Format R. -/
def mkR (op : BitVec 6) (rs rt rd sa : BitVec 5) (funct : BitVec 6) : Word :=
  op ++ rs ++ rt ++ rd ++ sa ++ funct
/-- Format I. -/
def mkI (op : BitVec 6) (rs rt : BitVec 5) (imm : BitVec 16) : Word := op ++ rs ++ rt ++ imm
/-- Format J, and the rows that stand for a whole coprocessor opcode. -/
def mkJ (op : BitVec 6) (target : BitVec 26) : Word := op ++ target
/-- The register trap instructions with their 10-bit code (R200). -/
def mkT (rs rt : BitVec 5) (code : BitVec 10) (funct : BitVec 6) : Word :=
  0#6 ++ rs ++ rt ++ code ++ funct
/-- SYSCALL and BREAK with their 20-bit code. -/
def mkS (code : BitVec 20) (funct : BitVec 6) : Word := 0#6 ++ code ++ funct
/-- MFC2 and MTC2. -/
def mkL (op : BitVec 6) (rs : BitVec 5) (low : BitVec 21) : Word := op ++ rs ++ low
/-- The vector unit base format, Figure 8 (R97): COP2, format, rt/vt, rd, opers, vw, vd. -/
def mkV (format t rd : BitVec 5) (opers : BitVec 1) (vw vd : BitVec 5) : Word :=
  0b010010#6 ++ format ++ t ++ rd ++ opers ++ vw ++ vd

/-! ### The decoder -/

/-- What the decoder reads from a word. `reserved`: the word raises a reserved instruction exception
(R93 to R96, R100 to R107). `unusedBits`: a scalar word with a nonzero bit in a field its instruction
does not use, which has no meaning (R94, R121, U9). `truncated`: fewer than four bytes. -/
inductive Decoded where
  | instr (i : Instr)
  | reserved
  | unusedBits (mnemonic : String)
  | truncated
  deriving DecidableEq, Repr

/-- SPECIAL, `op = 0` (R94). -/
def decodeSpecial (w : Word) : Decoded :=
  match functOf w with
  | 0#6 => if rsOf w = 0#5 then .instr (.sll (rdOf w) (rtOf w) (saOf w)) else .unusedBits "sll"
  | 2#6 => if rsOf w = 0#5 then .instr (.srl (rdOf w) (rtOf w) (saOf w)) else .unusedBits "srl"
  | 3#6 => if rsOf w = 0#5 then .instr (.sra (rdOf w) (rtOf w) (saOf w)) else .unusedBits "sra"
  | 4#6 => if saOf w = 0#5 then .instr (.sllv (rdOf w) (rtOf w) (rsOf w)) else .unusedBits "sllv"
  | 6#6 => if saOf w = 0#5 then .instr (.srlv (rdOf w) (rtOf w) (rsOf w)) else .unusedBits "srlv"
  | 7#6 => if saOf w = 0#5 then .instr (.srav (rdOf w) (rtOf w) (rsOf w)) else .unusedBits "srav"
  | 8#6 => if rtOf w = 0#5 ∧ rdOf w = 0#5 ∧ saOf w = 0#5 then .instr (.jr (rsOf w)) else .unusedBits "jr"
  | 9#6 => if rtOf w = 0#5 ∧ saOf w = 0#5 then .instr (.jalr (rdOf w) (rsOf w)) else .unusedBits "jalr"
  | 12#6 => .instr (.syscall (sysCodeOf w))
  | 13#6 => .instr (.brk (sysCodeOf w))
  | 15#6 => if rsOf w = 0#5 ∧ rtOf w = 0#5 ∧ rdOf w = 0#5 ∧ saOf w = 0#5 then .instr .sync else .unusedBits "sync"
  | 16#6 => if rsOf w = 0#5 ∧ rtOf w = 0#5 ∧ saOf w = 0#5 then .instr (.mfhi (rdOf w)) else .unusedBits "mfhi"
  | 17#6 => if rtOf w = 0#5 ∧ rdOf w = 0#5 ∧ saOf w = 0#5 then .instr (.mthi (rsOf w)) else .unusedBits "mthi"
  | 18#6 => if rsOf w = 0#5 ∧ rtOf w = 0#5 ∧ saOf w = 0#5 then .instr (.mflo (rdOf w)) else .unusedBits "mflo"
  | 19#6 => if rtOf w = 0#5 ∧ rdOf w = 0#5 ∧ saOf w = 0#5 then .instr (.mtlo (rsOf w)) else .unusedBits "mtlo"
  | 24#6 => if rdOf w = 0#5 ∧ saOf w = 0#5 then .instr (.mult (rsOf w) (rtOf w)) else .unusedBits "mult"
  | 25#6 => if rdOf w = 0#5 ∧ saOf w = 0#5 then .instr (.multu (rsOf w) (rtOf w)) else .unusedBits "multu"
  | 26#6 => if rdOf w = 0#5 ∧ saOf w = 0#5 then .instr (.div (rsOf w) (rtOf w)) else .unusedBits "div"
  | 27#6 => if rdOf w = 0#5 ∧ saOf w = 0#5 then .instr (.divu (rsOf w) (rtOf w)) else .unusedBits "divu"
  | 32#6 => if saOf w = 0#5 then .instr (.add (rdOf w) (rsOf w) (rtOf w)) else .unusedBits "add"
  | 33#6 => if saOf w = 0#5 then .instr (.addu (rdOf w) (rsOf w) (rtOf w)) else .unusedBits "addu"
  | 34#6 => if saOf w = 0#5 then .instr (.sub (rdOf w) (rsOf w) (rtOf w)) else .unusedBits "sub"
  | 35#6 => if saOf w = 0#5 then .instr (.subu (rdOf w) (rsOf w) (rtOf w)) else .unusedBits "subu"
  | 36#6 => if saOf w = 0#5 then .instr (.and (rdOf w) (rsOf w) (rtOf w)) else .unusedBits "and"
  | 37#6 => if saOf w = 0#5 then .instr (.or (rdOf w) (rsOf w) (rtOf w)) else .unusedBits "or"
  | 38#6 => if saOf w = 0#5 then .instr (.xor (rdOf w) (rsOf w) (rtOf w)) else .unusedBits "xor"
  | 39#6 => if saOf w = 0#5 then .instr (.nor (rdOf w) (rsOf w) (rtOf w)) else .unusedBits "nor"
  | 42#6 => if saOf w = 0#5 then .instr (.slt (rdOf w) (rsOf w) (rtOf w)) else .unusedBits "slt"
  | 43#6 => if saOf w = 0#5 then .instr (.sltu (rdOf w) (rsOf w) (rtOf w)) else .unusedBits "sltu"
  | 48#6 => .instr (.tge (rsOf w) (rtOf w) (codeOf w))
  | 49#6 => .instr (.tgeu (rsOf w) (rtOf w) (codeOf w))
  | 50#6 => .instr (.tlt (rsOf w) (rtOf w) (codeOf w))
  | 51#6 => .instr (.tltu (rsOf w) (rtOf w) (codeOf w))
  | 52#6 => .instr (.teq (rsOf w) (rtOf w) (codeOf w))
  | 54#6 => .instr (.tne (rsOf w) (rtOf w) (codeOf w))
  | _ => .reserved

/-- REGIMM, `op = 1` (R95). -/
def decodeRegimm (w : Word) : Decoded :=
  match rtOf w with
  | 0#5 => .instr (.bltz (rsOf w) (immOf w))
  | 1#5 => .instr (.bgez (rsOf w) (immOf w))
  | 2#5 => .instr (.bltzl (rsOf w) (immOf w))
  | 3#5 => .instr (.bgezl (rsOf w) (immOf w))
  | 8#5 => .instr (.tgei (rsOf w) (immOf w))
  | 9#5 => .instr (.tgeiu (rsOf w) (immOf w))
  | 10#5 => .instr (.tlti (rsOf w) (immOf w))
  | 11#5 => .instr (.tltiu (rsOf w) (immOf w))
  | 12#5 => .instr (.teqi (rsOf w) (immOf w))
  | 14#5 => .instr (.tnei (rsOf w) (immOf w))
  | 16#5 => .instr (.bltzal (rsOf w) (immOf w))
  | 17#5 => .instr (.bgezal (rsOf w) (immOf w))
  | 18#5 => .instr (.bltzall (rsOf w) (immOf w))
  | 19#5 => .instr (.bgezall (rsOf w) (immOf w))
  | _ => .reserved

/-- Table 4, format 10000: insert/extract, vector-vector (R101, R108). -/
def decodeIxv (w : Word) : Decoded :=
  if opersOf w = 0#1 then
    match vwOf w with
    | 0b01011#5 => .instr (.vextV (vdOf w) (rtOf w) (rdOf w))
    | _ => .reserved
  else .reserved

/-- Table 4, format 10001: insert/extract, vector-scalar (R101, R108). -/
def decodeIxs (w : Word) : Decoded :=
  if opersOf w = 0#1 then
    match vwOf w with
    | 0b10011#5 => .instr (.vinsS (rtOf w) (vdOf w) (rdOf w))
    | 0b11011#5 => .instr (.vextS (rtOf w) (vdOf w) (rdOf w))
    | _ => .reserved
  else .reserved

/-- Table 5, format 10010: indexed loads and stores (R102, R109). -/
def decodeMemv (w : Word) : Decoded :=
  if opersOf w = 0#1 then
    match vwOf w with
    | 0b10000#5 => .instr (.lbxV (vdOf w) (rdOf w) (rtOf w))
    | 0b10001#5 => .instr (.lhxV (vdOf w) (rdOf w) (rtOf w))
    | 0b10011#5 => .instr (.lwxV (vdOf w) (rdOf w) (rtOf w))
    | 0b10100#5 => .instr (.lbuxV (vdOf w) (rdOf w) (rtOf w))
    | 0b10101#5 => .instr (.lhuxV (vdOf w) (rdOf w) (rtOf w))
    | 0b11000#5 => .instr (.sbxV (vdOf w) (rdOf w) (rtOf w))
    | 0b11001#5 => .instr (.shxV (vdOf w) (rdOf w) (rtOf w))
    | 0b11011#5 => .instr (.swxV (vdOf w) (rdOf w) (rtOf w))
    | _ => .reserved
  else .reserved

/-- Table 5, format 10011: unit-stride and strided loads and stores (R102, R109). -/
def decodeMems (w : Word) : Decoded :=
  if opersOf w = 0#1 then
    match vwOf w with
    | 0b00000#5 => .instr (.lbaiV (vdOf w) (rdOf w) (rtOf w))
    | 0b00001#5 => .instr (.lhaiV (vdOf w) (rdOf w) (rtOf w))
    | 0b00011#5 => .instr (.lwaiV (vdOf w) (rdOf w) (rtOf w))
    | 0b00100#5 => .instr (.lbuaiV (vdOf w) (rdOf w) (rtOf w))
    | 0b00101#5 => .instr (.lhuaiV (vdOf w) (rdOf w) (rtOf w))
    | 0b01000#5 => .instr (.sbaiV (vdOf w) (rdOf w) (rtOf w))
    | 0b01001#5 => .instr (.shaiV (vdOf w) (rdOf w) (rtOf w))
    | 0b01011#5 => .instr (.swaiV (vdOf w) (rdOf w) (rtOf w))
    | 0b10000#5 => .instr (.lbstV (vdOf w) (rdOf w) (rtOf w))
    | 0b10001#5 => .instr (.lhstV (vdOf w) (rdOf w) (rtOf w))
    | 0b10011#5 => .instr (.lwstV (vdOf w) (rdOf w) (rtOf w))
    | 0b10100#5 => .instr (.lbustV (vdOf w) (rdOf w) (rtOf w))
    | 0b10101#5 => .instr (.lhustV (vdOf w) (rdOf w) (rtOf w))
    | 0b11000#5 => .instr (.sbstV (vdOf w) (rdOf w) (rtOf w))
    | 0b11001#5 => .instr (.shstV (vdOf w) (rdOf w) (rtOf w))
    | 0b11011#5 => .instr (.swstV (vdOf w) (rdOf w) (rtOf w))
    | _ => .reserved
  else .reserved

/-- Table 6, format 10100, `opers` 0: the `.vv` forms (R103, R110). -/
def decodeIntVv (w : Word) : Decoded :=
  match rdOf w with
  | 0b00000#5 => .instr (.subVv (vwOf w) (vdOf w) (rtOf w))
  | 0b00001#5 => .instr (.subuVv (vwOf w) (vdOf w) (rtOf w))
  | 0b00100#5 => if vwOf w = 0#5 then .instr (.fltVv (vdOf w) (rtOf w)) else .reserved
  | 0b00101#5 => if vwOf w = 0#5 then .instr (.fltuVv (vdOf w) (rtOf w)) else .reserved
  | 0b00110#5 => if vwOf w = 0#5 then .instr (.feqVv (vdOf w) (rtOf w)) else .reserved
  | 0b01000#5 => .instr (.sllvVv (vwOf w) (vdOf w) (rtOf w))
  | 0b01001#5 => .instr (.srlvVv (vwOf w) (vdOf w) (rtOf w))
  | 0b01011#5 => .instr (.sravVv (vwOf w) (vdOf w) (rtOf w))
  | 0b01100#5 => .instr (.sltVv (vwOf w) (vdOf w) (rtOf w))
  | 0b01101#5 => .instr (.sltuVv (vwOf w) (vdOf w) (rtOf w))
  | 0b01110#5 => .instr (.seqVv (vwOf w) (vdOf w) (rtOf w))
  | 0b10000#5 => .instr (.addVv (vwOf w) (vdOf w) (rtOf w))
  | 0b10001#5 => .instr (.adduVv (vwOf w) (vdOf w) (rtOf w))
  | 0b10100#5 => .instr (.andVv (vwOf w) (vdOf w) (rtOf w))
  | 0b10101#5 => .instr (.orVv (vwOf w) (vdOf w) (rtOf w))
  | 0b10110#5 => .instr (.xorVv (vwOf w) (vdOf w) (rtOf w))
  | 0b10111#5 => .instr (.norVv (vwOf w) (vdOf w) (rtOf w))
  | 0b11001#5 => .instr (.cmvnezVv (vwOf w) (vdOf w) (rtOf w))
  | 0b11010#5 => .instr (.cmvgezVv (vwOf w) (vdOf w) (rtOf w))
  | 0b11011#5 => .instr (.cmvlezVv (vwOf w) (vdOf w) (rtOf w))
  | 0b11101#5 => .instr (.cmveqzVv (vwOf w) (vdOf w) (rtOf w))
  | 0b11110#5 => .instr (.cmvltzVv (vwOf w) (vdOf w) (rtOf w))
  | 0b11111#5 => .instr (.cmvgtzVv (vwOf w) (vdOf w) (rtOf w))
  | _ => .reserved

/-- Table 6, format 10101, `opers` 0: the `.vs` forms (R103, R110). -/
def decodeIntVs (w : Word) : Decoded :=
  match rdOf w with
  | 0b00000#5 => .instr (.subVs (vwOf w) (vdOf w) (rtOf w))
  | 0b00001#5 => .instr (.subuVs (vwOf w) (vdOf w) (rtOf w))
  | 0b00100#5 => if vwOf w = 0#5 then .instr (.fltVs (vdOf w) (rtOf w)) else .reserved
  | 0b00101#5 => if vwOf w = 0#5 then .instr (.fltuVs (vdOf w) (rtOf w)) else .reserved
  | 0b00110#5 => if vwOf w = 0#5 then .instr (.feqVs (vdOf w) (rtOf w)) else .reserved
  | 0b01000#5 => .instr (.sllvVs (vwOf w) (vdOf w) (rtOf w))
  | 0b01001#5 => .instr (.srlvVs (vwOf w) (vdOf w) (rtOf w))
  | 0b01011#5 => .instr (.sravVs (vwOf w) (vdOf w) (rtOf w))
  | 0b01100#5 => .instr (.sltVs (vwOf w) (vdOf w) (rtOf w))
  | 0b01101#5 => .instr (.sltuVs (vwOf w) (vdOf w) (rtOf w))
  | 0b01110#5 => .instr (.seqVs (vwOf w) (vdOf w) (rtOf w))
  | 0b10000#5 => .instr (.addVs (vwOf w) (vdOf w) (rtOf w))
  | 0b10001#5 => .instr (.adduVs (vwOf w) (vdOf w) (rtOf w))
  | 0b10100#5 => .instr (.andVs (vwOf w) (vdOf w) (rtOf w))
  | 0b10101#5 => .instr (.orVs (vwOf w) (vdOf w) (rtOf w))
  | 0b10110#5 => .instr (.xorVs (vwOf w) (vdOf w) (rtOf w))
  | 0b10111#5 => .instr (.norVs (vwOf w) (vdOf w) (rtOf w))
  | 0b11001#5 => .instr (.cmvnezVs (vwOf w) (vdOf w) (rtOf w))
  | 0b11010#5 => .instr (.cmvgezVs (vwOf w) (vdOf w) (rtOf w))
  | 0b11011#5 => .instr (.cmvlezVs (vwOf w) (vdOf w) (rtOf w))
  | 0b11101#5 => .instr (.cmveqzVs (vwOf w) (vdOf w) (rtOf w))
  | 0b11110#5 => .instr (.cmvltzVs (vwOf w) (vdOf w) (rtOf w))
  | 0b11111#5 => .instr (.cmvgtzVs (vwOf w) (vdOf w) (rtOf w))
  | _ => .reserved

/-- Table 6, format 10101, `opers` 1: the `.sv` forms (R103, R110). -/
def decodeIntSv (w : Word) : Decoded :=
  match rdOf w with
  | 0b00000#5 => .instr (.subSv (vwOf w) (rtOf w) (vdOf w))
  | 0b00001#5 => .instr (.subuSv (vwOf w) (rtOf w) (vdOf w))
  | 0b00100#5 => if vwOf w = 0#5 then .instr (.fltSv (rtOf w) (vdOf w)) else .reserved
  | 0b00101#5 => if vwOf w = 0#5 then .instr (.fltuSv (rtOf w) (vdOf w)) else .reserved
  | 0b01000#5 => .instr (.sllvSv (vwOf w) (rtOf w) (vdOf w))
  | 0b01001#5 => .instr (.srlvSv (vwOf w) (rtOf w) (vdOf w))
  | 0b01011#5 => .instr (.sravSv (vwOf w) (rtOf w) (vdOf w))
  | 0b01100#5 => .instr (.sltSv (vwOf w) (rtOf w) (vdOf w))
  | 0b01101#5 => .instr (.sltuSv (vwOf w) (rtOf w) (vdOf w))
  | _ => .reserved

/-- A COP2 word (R105, R113, steps 1 to 3). -/
def decodeCop2 (w : Word) : Decoded :=
  match rsOf w with
  | 0b00000#5 => .instr (.mfc2 (lowOf w))
  | 0b00010#5 => if saOf w = 0#5 ∧ functOf w = 0#6 then .instr (.cfvu (rtOf w) (rdOf w)) else .reserved
  | 0b00100#5 => .instr (.mtc2 (lowOf w))
  | 0b00110#5 => if saOf w = 0#5 ∧ functOf w = 0#6 then .instr (.ctvu (rtOf w) (rdOf w)) else .reserved
  | 0b01000#5 =>
    match rtOf w with
    | 0b00000#5 => .instr (.bc2f (immOf w))
    | 0b00001#5 => .instr (.bc2t (immOf w))
    | 0b00010#5 => .instr (.bc2fl (immOf w))
    | 0b00011#5 => .instr (.bc2tl (immOf w))
    | _ => .reserved
  | 0b10000#5 => decodeIxv w
  | 0b10001#5 => decodeIxs w
  | 0b10010#5 => decodeMemv w
  | 0b10011#5 => decodeMems w
  | 0b10100#5 => if opersOf w = 0#1 then decodeIntVv w else .reserved
  | 0b10101#5 => if opersOf w = 0#1 then decodeIntVs w else decodeIntSv w
  | 0b11000#5 => if opersOf w = 0#1 then .instr (.fxaddVv (vwOf w) (vdOf w) (rtOf w) (rdOf w)) else .reserved
  | 0b11001#5 =>
    if opersOf w = 0#1 then .instr (.fxaddVs (vwOf w) (vdOf w) (rtOf w) (rdOf w))
    else .instr (.fxaddSv (vwOf w) (rtOf w) (vdOf w) (rdOf w))
  | 0b11010#5 => if opersOf w = 0#1 then .instr (.fxsubVv (vwOf w) (vdOf w) (rtOf w) (rdOf w)) else .reserved
  | 0b11011#5 =>
    if opersOf w = 0#1 then .instr (.fxsubVs (vwOf w) (vdOf w) (rtOf w) (rdOf w))
    else .instr (.fxsubSv (vwOf w) (rtOf w) (vdOf w) (rdOf w))
  | 0b11100#5 => if opersOf w = 0#1 then .instr (.fxmulVv (vwOf w) (vdOf w) (rtOf w) (rdOf w)) else .reserved
  | 0b11101#5 =>
    if opersOf w = 0#1 then .instr (.fxmulVs (vwOf w) (vdOf w) (rtOf w) (rdOf w))
    else .instr (.fxmulSv (vwOf w) (rtOf w) (vdOf w) (rdOf w))
  | _ => .reserved

/-- The decoder: the major opcode map (R93) and what each major opcode selects. -/
def decode (w : Word) : Decoded :=
  match opOf w with
  | 0#6 => decodeSpecial w
  | 1#6 => decodeRegimm w
  | 18#6 => decodeCop2 w
  | 2#6 => .instr (.j (targetOf w))
  | 3#6 => .instr (.jal (targetOf w))
  | 4#6 => .instr (.beq (rsOf w) (rtOf w) (immOf w))
  | 5#6 => .instr (.bne (rsOf w) (rtOf w) (immOf w))
  | 6#6 => if rtOf w = 0#5 then .instr (.blez (rsOf w) (immOf w)) else .unusedBits "blez"
  | 7#6 => if rtOf w = 0#5 then .instr (.bgtz (rsOf w) (immOf w)) else .unusedBits "bgtz"
  | 8#6 => .instr (.addi (rtOf w) (rsOf w) (immOf w))
  | 9#6 => .instr (.addiu (rtOf w) (rsOf w) (immOf w))
  | 10#6 => .instr (.slti (rtOf w) (rsOf w) (immOf w))
  | 11#6 => .instr (.sltiu (rtOf w) (rsOf w) (immOf w))
  | 12#6 => .instr (.andi (rtOf w) (rsOf w) (immOf w))
  | 13#6 => .instr (.ori (rtOf w) (rsOf w) (immOf w))
  | 14#6 => .instr (.xori (rtOf w) (rsOf w) (immOf w))
  | 15#6 => if rsOf w = 0#5 then .instr (.lui (rtOf w) (immOf w)) else .unusedBits "lui"
  | 16#6 => .instr (.cop0 (targetOf w))
  | 17#6 => .instr (.cop1 (targetOf w))
  | 19#6 => .instr (.cop3 (targetOf w))
  | 20#6 => .instr (.beql (rsOf w) (rtOf w) (immOf w))
  | 21#6 => .instr (.bnel (rsOf w) (rtOf w) (immOf w))
  | 22#6 => if rtOf w = 0#5 then .instr (.blezl (rsOf w) (immOf w)) else .unusedBits "blezl"
  | 23#6 => if rtOf w = 0#5 then .instr (.bgtzl (rsOf w) (immOf w)) else .unusedBits "bgtzl"
  | 32#6 => .instr (.lb (rtOf w) (immOf w) (rsOf w))
  | 33#6 => .instr (.lh (rtOf w) (immOf w) (rsOf w))
  | 34#6 => .instr (.lwl (rtOf w) (immOf w) (rsOf w))
  | 35#6 => .instr (.lw (rtOf w) (immOf w) (rsOf w))
  | 36#6 => .instr (.lbu (rtOf w) (immOf w) (rsOf w))
  | 37#6 => .instr (.lhu (rtOf w) (immOf w) (rsOf w))
  | 38#6 => .instr (.lwr (rtOf w) (immOf w) (rsOf w))
  | 40#6 => .instr (.sb (rtOf w) (immOf w) (rsOf w))
  | 41#6 => .instr (.sh (rtOf w) (immOf w) (rsOf w))
  | 42#6 => .instr (.swl (rtOf w) (immOf w) (rsOf w))
  | 43#6 => .instr (.sw (rtOf w) (immOf w) (rsOf w))
  | 46#6 => .instr (.swr (rtOf w) (immOf w) (rsOf w))
  | 48#6 => .instr (.ll (rtOf w) (immOf w) (rsOf w))
  | 49#6 => .instr (.lwc1 (rtOf w) (immOf w) (rsOf w))
  | 50#6 => .instr (.lwc2 (rtOf w) (immOf w) (rsOf w))
  | 51#6 => .instr (.lwc3 (rtOf w) (immOf w) (rsOf w))
  | 53#6 => .instr (.ldc1 (rtOf w) (immOf w) (rsOf w))
  | 54#6 => .instr (.ldc2 (rtOf w) (immOf w) (rsOf w))
  | 56#6 => .instr (.sc (rtOf w) (immOf w) (rsOf w))
  | 57#6 => .instr (.swc1 (rtOf w) (immOf w) (rsOf w))
  | 58#6 => .instr (.swc2 (rtOf w) (immOf w) (rsOf w))
  | 59#6 => .instr (.swc3 (rtOf w) (immOf w) (rsOf w))
  | 61#6 => .instr (.sdc1 (rtOf w) (immOf w) (rsOf w))
  | 62#6 => .instr (.sdc2 (rtOf w) (immOf w) (rsOf w))
  | _ => .reserved

/-! ### Byte order (R64) -/

/-- The value of a string of bytes, the first at the lowest address, in the byte order of R64. -/
def assemble (bigEndian : Bool) (bytes : List Byte) : Word :=
  (if bigEndian then bytes else bytes.reverse).foldl (fun v b => (v <<< 8) ||| b.setWidth 32) 0

/-- Byte `k` (from the lowest address) of the low `n` bytes of `w`, in the byte order of R64. -/
def byteAt (bigEndian : Bool) (n : Nat) (w : Word) (k : Nat) : Byte :=
  (w >>> (8 * (if bigEndian then n - 1 - k else k))).setWidth 8

/-- The low `n` bytes of `w` as they lie in memory, the lowest address first. -/
def split (bigEndian : Bool) (n : Nat) (w : Word) : List Byte :=
  (List.range n).map (byteAt bigEndian n w)

/-- The decoder on bytes: every instruction is one 32-bit word (R90), read in the byte order of
R64. -/
def decodeBytes (bigEndian : Bool) : List Byte → Decoded
  | b0 :: b1 :: b2 :: b3 :: _ => decode (assemble bigEndian [b0, b1, b2, b3])
  | _ => .truncated

/-! ### The encoder -/

/-- The word of an instruction, from the encoding tables (R94, R95, R96, R108 to R112 and the match
values of files 40 and 41). -/
def encode : Instr → Word
  | .add rd rs rt => mkR 0#6 rs rt rd 0#5 32#6
  | .addu rd rs rt => mkR 0#6 rs rt rd 0#5 33#6
  | .sub rd rs rt => mkR 0#6 rs rt rd 0#5 34#6
  | .subu rd rs rt => mkR 0#6 rs rt rd 0#5 35#6
  | .and rd rs rt => mkR 0#6 rs rt rd 0#5 36#6
  | .or rd rs rt => mkR 0#6 rs rt rd 0#5 37#6
  | .xor rd rs rt => mkR 0#6 rs rt rd 0#5 38#6
  | .nor rd rs rt => mkR 0#6 rs rt rd 0#5 39#6
  | .slt rd rs rt => mkR 0#6 rs rt rd 0#5 42#6
  | .sltu rd rs rt => mkR 0#6 rs rt rd 0#5 43#6
  | .sll rd rt sa => mkR 0#6 0#5 rt rd sa 0#6
  | .srl rd rt sa => mkR 0#6 0#5 rt rd sa 2#6
  | .sra rd rt sa => mkR 0#6 0#5 rt rd sa 3#6
  | .sllv rd rt rs => mkR 0#6 rs rt rd 0#5 4#6
  | .srlv rd rt rs => mkR 0#6 rs rt rd 0#5 6#6
  | .srav rd rt rs => mkR 0#6 rs rt rd 0#5 7#6
  | .addi rt rs imm => mkI 8#6 rs rt imm
  | .addiu rt rs imm => mkI 9#6 rs rt imm
  | .slti rt rs imm => mkI 10#6 rs rt imm
  | .sltiu rt rs imm => mkI 11#6 rs rt imm
  | .andi rt rs imm => mkI 12#6 rs rt imm
  | .ori rt rs imm => mkI 13#6 rs rt imm
  | .xori rt rs imm => mkI 14#6 rs rt imm
  | .lui rt imm => mkI 15#6 0#5 rt imm
  | .mult rs rt => mkR 0#6 rs rt 0#5 0#5 24#6
  | .multu rs rt => mkR 0#6 rs rt 0#5 0#5 25#6
  | .div rs rt => mkR 0#6 rs rt 0#5 0#5 26#6
  | .divu rs rt => mkR 0#6 rs rt 0#5 0#5 27#6
  | .mfhi rd => mkR 0#6 0#5 0#5 rd 0#5 16#6
  | .mthi rs => mkR 0#6 rs 0#5 0#5 0#5 17#6
  | .mflo rd => mkR 0#6 0#5 0#5 rd 0#5 18#6
  | .mtlo rs => mkR 0#6 rs 0#5 0#5 0#5 19#6
  | .lb rt offset base => mkI 32#6 base rt offset
  | .lbu rt offset base => mkI 36#6 base rt offset
  | .lh rt offset base => mkI 33#6 base rt offset
  | .lhu rt offset base => mkI 37#6 base rt offset
  | .lw rt offset base => mkI 35#6 base rt offset
  | .lwl rt offset base => mkI 34#6 base rt offset
  | .lwr rt offset base => mkI 38#6 base rt offset
  | .sb rt offset base => mkI 40#6 base rt offset
  | .sh rt offset base => mkI 41#6 base rt offset
  | .sw rt offset base => mkI 43#6 base rt offset
  | .swl rt offset base => mkI 42#6 base rt offset
  | .swr rt offset base => mkI 46#6 base rt offset
  | .ll rt offset base => mkI 48#6 base rt offset
  | .sc rt offset base => mkI 56#6 base rt offset
  | .sync => mkR 0#6 0#5 0#5 0#5 0#5 15#6
  | .j target => mkJ 2#6 target
  | .jal target => mkJ 3#6 target
  | .jr rs => mkR 0#6 rs 0#5 0#5 0#5 8#6
  | .jalr rd rs => mkR 0#6 rs 0#5 rd 0#5 9#6
  | .beq rs rt offset => mkI 4#6 rs rt offset
  | .bne rs rt offset => mkI 5#6 rs rt offset
  | .blez rs offset => mkI 6#6 rs 0#5 offset
  | .bgtz rs offset => mkI 7#6 rs 0#5 offset
  | .bltz rs offset => mkI 1#6 rs 0#5 offset
  | .bgez rs offset => mkI 1#6 rs 1#5 offset
  | .bltzal rs offset => mkI 1#6 rs 16#5 offset
  | .bgezal rs offset => mkI 1#6 rs 17#5 offset
  | .beql rs rt offset => mkI 20#6 rs rt offset
  | .bnel rs rt offset => mkI 21#6 rs rt offset
  | .blezl rs offset => mkI 22#6 rs 0#5 offset
  | .bgtzl rs offset => mkI 23#6 rs 0#5 offset
  | .bltzl rs offset => mkI 1#6 rs 2#5 offset
  | .bgezl rs offset => mkI 1#6 rs 3#5 offset
  | .bltzall rs offset => mkI 1#6 rs 18#5 offset
  | .bgezall rs offset => mkI 1#6 rs 19#5 offset
  | .tge rs rt code => mkT rs rt code 48#6
  | .tgeu rs rt code => mkT rs rt code 49#6
  | .tlt rs rt code => mkT rs rt code 50#6
  | .tltu rs rt code => mkT rs rt code 51#6
  | .teq rs rt code => mkT rs rt code 52#6
  | .tne rs rt code => mkT rs rt code 54#6
  | .tgei rs imm => mkI 1#6 rs 8#5 imm
  | .tgeiu rs imm => mkI 1#6 rs 9#5 imm
  | .tlti rs imm => mkI 1#6 rs 10#5 imm
  | .tltiu rs imm => mkI 1#6 rs 11#5 imm
  | .teqi rs imm => mkI 1#6 rs 12#5 imm
  | .tnei rs imm => mkI 1#6 rs 14#5 imm
  | .syscall code => mkS code 12#6
  | .brk code => mkS code 13#6
  | .cop0 cofun => mkJ 16#6 cofun
  | .cop1 cofun => mkJ 17#6 cofun
  | .cop3 cofun => mkJ 19#6 cofun
  | .lwc1 rt offset base => mkI 49#6 base rt offset
  | .swc1 rt offset base => mkI 57#6 base rt offset
  | .ldc1 rt offset base => mkI 53#6 base rt offset
  | .sdc1 rt offset base => mkI 61#6 base rt offset
  | .lwc2 rt offset base => mkI 50#6 base rt offset
  | .swc2 rt offset base => mkI 58#6 base rt offset
  | .ldc2 rt offset base => mkI 54#6 base rt offset
  | .sdc2 rt offset base => mkI 62#6 base rt offset
  | .lwc3 rt offset base => mkI 51#6 base rt offset
  | .swc3 rt offset base => mkI 59#6 base rt offset
  | .mfc2 low => mkL 18#6 0b00000#5 low
  | .mtc2 low => mkL 18#6 0b00100#5 low
  | .bc2f offset => mkI 18#6 0b01000#5 0#5 offset
  | .bc2t offset => mkI 18#6 0b01000#5 1#5 offset
  | .bc2fl offset => mkI 18#6 0b01000#5 2#5 offset
  | .bc2tl offset => mkI 18#6 0b01000#5 3#5 offset
  | .cfvu rt cs => mkR 18#6 0b00010#5 rt cs 0#5 0#6
  | .ctvu rt cs => mkR 18#6 0b00110#5 rt cs 0#5 0#6
  | .vextV vd vt rd => mkV 0b10000#5 vt rd 0b0#1 0b01011#5 vd
  | .vinsS rt vd rd => mkV 0b10001#5 rt rd 0b0#1 0b10011#5 vd
  | .vextS rt vd rd => mkV 0b10001#5 rt rd 0b0#1 0b11011#5 vd
  | .lbaiV vd rd rt => mkV 0b10011#5 rt rd 0b0#1 0b00000#5 vd
  | .lhaiV vd rd rt => mkV 0b10011#5 rt rd 0b0#1 0b00001#5 vd
  | .lwaiV vd rd rt => mkV 0b10011#5 rt rd 0b0#1 0b00011#5 vd
  | .lbuaiV vd rd rt => mkV 0b10011#5 rt rd 0b0#1 0b00100#5 vd
  | .lhuaiV vd rd rt => mkV 0b10011#5 rt rd 0b0#1 0b00101#5 vd
  | .lbxV vd rd vt => mkV 0b10010#5 vt rd 0b0#1 0b10000#5 vd
  | .lhxV vd rd vt => mkV 0b10010#5 vt rd 0b0#1 0b10001#5 vd
  | .lwxV vd rd vt => mkV 0b10010#5 vt rd 0b0#1 0b10011#5 vd
  | .lbuxV vd rd vt => mkV 0b10010#5 vt rd 0b0#1 0b10100#5 vd
  | .lhuxV vd rd vt => mkV 0b10010#5 vt rd 0b0#1 0b10101#5 vd
  | .lbstV vd rd rt => mkV 0b10011#5 rt rd 0b0#1 0b10000#5 vd
  | .lhstV vd rd rt => mkV 0b10011#5 rt rd 0b0#1 0b10001#5 vd
  | .lwstV vd rd rt => mkV 0b10011#5 rt rd 0b0#1 0b10011#5 vd
  | .lbustV vd rd rt => mkV 0b10011#5 rt rd 0b0#1 0b10100#5 vd
  | .lhustV vd rd rt => mkV 0b10011#5 rt rd 0b0#1 0b10101#5 vd
  | .sbaiV vd rd rt => mkV 0b10011#5 rt rd 0b0#1 0b01000#5 vd
  | .shaiV vd rd rt => mkV 0b10011#5 rt rd 0b0#1 0b01001#5 vd
  | .swaiV vd rd rt => mkV 0b10011#5 rt rd 0b0#1 0b01011#5 vd
  | .sbxV vd rd vt => mkV 0b10010#5 vt rd 0b0#1 0b11000#5 vd
  | .shxV vd rd vt => mkV 0b10010#5 vt rd 0b0#1 0b11001#5 vd
  | .swxV vd rd vt => mkV 0b10010#5 vt rd 0b0#1 0b11011#5 vd
  | .sbstV vd rd rt => mkV 0b10011#5 rt rd 0b0#1 0b11000#5 vd
  | .shstV vd rd rt => mkV 0b10011#5 rt rd 0b0#1 0b11001#5 vd
  | .swstV vd rd rt => mkV 0b10011#5 rt rd 0b0#1 0b11011#5 vd
  | .andVv vw vd vt => mkV 0b10100#5 vt 0b10100#5 0b0#1 vw vd
  | .andVs vw vd rt => mkV 0b10101#5 rt 0b10100#5 0b0#1 vw vd
  | .orVv vw vd vt => mkV 0b10100#5 vt 0b10101#5 0b0#1 vw vd
  | .orVs vw vd rt => mkV 0b10101#5 rt 0b10101#5 0b0#1 vw vd
  | .xorVv vw vd vt => mkV 0b10100#5 vt 0b10110#5 0b0#1 vw vd
  | .xorVs vw vd rt => mkV 0b10101#5 rt 0b10110#5 0b0#1 vw vd
  | .norVv vw vd vt => mkV 0b10100#5 vt 0b10111#5 0b0#1 vw vd
  | .norVs vw vd rt => mkV 0b10101#5 rt 0b10111#5 0b0#1 vw vd
  | .addVv vw vd vt => mkV 0b10100#5 vt 0b10000#5 0b0#1 vw vd
  | .addVs vw vd rt => mkV 0b10101#5 rt 0b10000#5 0b0#1 vw vd
  | .adduVv vw vd vt => mkV 0b10100#5 vt 0b10001#5 0b0#1 vw vd
  | .adduVs vw vd rt => mkV 0b10101#5 rt 0b10001#5 0b0#1 vw vd
  | .subVv vw vd vt => mkV 0b10100#5 vt 0b00000#5 0b0#1 vw vd
  | .subVs vw vd rt => mkV 0b10101#5 rt 0b00000#5 0b0#1 vw vd
  | .subSv vw rt vd => mkV 0b10101#5 rt 0b00000#5 0b1#1 vw vd
  | .subuVv vw vd vt => mkV 0b10100#5 vt 0b00001#5 0b0#1 vw vd
  | .subuVs vw vd rt => mkV 0b10101#5 rt 0b00001#5 0b0#1 vw vd
  | .subuSv vw rt vd => mkV 0b10101#5 rt 0b00001#5 0b1#1 vw vd
  | .sllvVv vw vd vt => mkV 0b10100#5 vt 0b01000#5 0b0#1 vw vd
  | .sllvVs vw vd rt => mkV 0b10101#5 rt 0b01000#5 0b0#1 vw vd
  | .sllvSv vw rt vd => mkV 0b10101#5 rt 0b01000#5 0b1#1 vw vd
  | .sravVv vw vd vt => mkV 0b10100#5 vt 0b01011#5 0b0#1 vw vd
  | .sravVs vw vd rt => mkV 0b10101#5 rt 0b01011#5 0b0#1 vw vd
  | .sravSv vw rt vd => mkV 0b10101#5 rt 0b01011#5 0b1#1 vw vd
  | .srlvVv vw vd vt => mkV 0b10100#5 vt 0b01001#5 0b0#1 vw vd
  | .srlvVs vw vd rt => mkV 0b10101#5 rt 0b01001#5 0b0#1 vw vd
  | .srlvSv vw rt vd => mkV 0b10101#5 rt 0b01001#5 0b1#1 vw vd
  | .sltVv vw vd vt => mkV 0b10100#5 vt 0b01100#5 0b0#1 vw vd
  | .sltVs vw vd rt => mkV 0b10101#5 rt 0b01100#5 0b0#1 vw vd
  | .sltSv vw rt vd => mkV 0b10101#5 rt 0b01100#5 0b1#1 vw vd
  | .sltuVv vw vd vt => mkV 0b10100#5 vt 0b01101#5 0b0#1 vw vd
  | .sltuVs vw vd rt => mkV 0b10101#5 rt 0b01101#5 0b0#1 vw vd
  | .sltuSv vw rt vd => mkV 0b10101#5 rt 0b01101#5 0b1#1 vw vd
  | .seqVv vw vd vt => mkV 0b10100#5 vt 0b01110#5 0b0#1 vw vd
  | .seqVs vw vd rt => mkV 0b10101#5 rt 0b01110#5 0b0#1 vw vd
  | .fltVv vd vt => mkV 0b10100#5 vt 0b00100#5 0b0#1 0b00000#5 vd
  | .fltVs vd rt => mkV 0b10101#5 rt 0b00100#5 0b0#1 0b00000#5 vd
  | .fltSv rt vd => mkV 0b10101#5 rt 0b00100#5 0b1#1 0b00000#5 vd
  | .fltuVv vd vt => mkV 0b10100#5 vt 0b00101#5 0b0#1 0b00000#5 vd
  | .fltuVs vd rt => mkV 0b10101#5 rt 0b00101#5 0b0#1 0b00000#5 vd
  | .fltuSv rt vd => mkV 0b10101#5 rt 0b00101#5 0b1#1 0b00000#5 vd
  | .feqVv vd vt => mkV 0b10100#5 vt 0b00110#5 0b0#1 0b00000#5 vd
  | .feqVs vd rt => mkV 0b10101#5 rt 0b00110#5 0b0#1 0b00000#5 vd
  | .cmvnezVv vw vd vt => mkV 0b10100#5 vt 0b11001#5 0b0#1 vw vd
  | .cmvgezVv vw vd vt => mkV 0b10100#5 vt 0b11010#5 0b0#1 vw vd
  | .cmvlezVv vw vd vt => mkV 0b10100#5 vt 0b11011#5 0b0#1 vw vd
  | .cmveqzVv vw vd vt => mkV 0b10100#5 vt 0b11101#5 0b0#1 vw vd
  | .cmvltzVv vw vd vt => mkV 0b10100#5 vt 0b11110#5 0b0#1 vw vd
  | .cmvgtzVv vw vd vt => mkV 0b10100#5 vt 0b11111#5 0b0#1 vw vd
  | .cmvnezVs vw vd rt => mkV 0b10101#5 rt 0b11001#5 0b0#1 vw vd
  | .cmvgezVs vw vd rt => mkV 0b10101#5 rt 0b11010#5 0b0#1 vw vd
  | .cmvlezVs vw vd rt => mkV 0b10101#5 rt 0b11011#5 0b0#1 vw vd
  | .cmveqzVs vw vd rt => mkV 0b10101#5 rt 0b11101#5 0b0#1 vw vd
  | .cmvltzVs vw vd rt => mkV 0b10101#5 rt 0b11110#5 0b0#1 vw vd
  | .cmvgtzVs vw vd rt => mkV 0b10101#5 rt 0b11111#5 0b0#1 vw vd
  | .fxaddVv vw vd vt rd => mkV 0b11000#5 vt rd 0b0#1 vw vd
  | .fxaddVs vw vd rt rd => mkV 0b11001#5 rt rd 0b0#1 vw vd
  | .fxaddSv vw rt vd rd => mkV 0b11001#5 rt rd 0b1#1 vw vd
  | .fxsubVv vw vd vt rd => mkV 0b11010#5 vt rd 0b0#1 vw vd
  | .fxsubVs vw vd rt rd => mkV 0b11011#5 rt rd 0b0#1 vw vd
  | .fxsubSv vw rt vd rd => mkV 0b11011#5 rt rd 0b1#1 vw vd
  | .fxmulVv vw vd vt rd => mkV 0b11100#5 vt rd 0b0#1 vw vd
  | .fxmulVs vw vd rt rd => mkV 0b11101#5 rt rd 0b0#1 vw vd
  | .fxmulSv vw rt vd rd => mkV 0b11101#5 rt rd 0b1#1 vw vd

/-- The vector register fields an instruction names (R106): `vd`, `vw` and `vt` where the form has
them. -/
def Instr.vregs : Instr → List VReg
  | .add _ _ _ => []
  | .addu _ _ _ => []
  | .sub _ _ _ => []
  | .subu _ _ _ => []
  | .and _ _ _ => []
  | .or _ _ _ => []
  | .xor _ _ _ => []
  | .nor _ _ _ => []
  | .slt _ _ _ => []
  | .sltu _ _ _ => []
  | .sll _ _ _ => []
  | .srl _ _ _ => []
  | .sra _ _ _ => []
  | .sllv _ _ _ => []
  | .srlv _ _ _ => []
  | .srav _ _ _ => []
  | .addi _ _ _ => []
  | .addiu _ _ _ => []
  | .slti _ _ _ => []
  | .sltiu _ _ _ => []
  | .andi _ _ _ => []
  | .ori _ _ _ => []
  | .xori _ _ _ => []
  | .lui _ _ => []
  | .mult _ _ => []
  | .multu _ _ => []
  | .div _ _ => []
  | .divu _ _ => []
  | .mfhi _ => []
  | .mthi _ => []
  | .mflo _ => []
  | .mtlo _ => []
  | .lb _ _ _ => []
  | .lbu _ _ _ => []
  | .lh _ _ _ => []
  | .lhu _ _ _ => []
  | .lw _ _ _ => []
  | .lwl _ _ _ => []
  | .lwr _ _ _ => []
  | .sb _ _ _ => []
  | .sh _ _ _ => []
  | .sw _ _ _ => []
  | .swl _ _ _ => []
  | .swr _ _ _ => []
  | .ll _ _ _ => []
  | .sc _ _ _ => []
  | .sync => []
  | .j _ => []
  | .jal _ => []
  | .jr _ => []
  | .jalr _ _ => []
  | .beq _ _ _ => []
  | .bne _ _ _ => []
  | .blez _ _ => []
  | .bgtz _ _ => []
  | .bltz _ _ => []
  | .bgez _ _ => []
  | .bltzal _ _ => []
  | .bgezal _ _ => []
  | .beql _ _ _ => []
  | .bnel _ _ _ => []
  | .blezl _ _ => []
  | .bgtzl _ _ => []
  | .bltzl _ _ => []
  | .bgezl _ _ => []
  | .bltzall _ _ => []
  | .bgezall _ _ => []
  | .tge _ _ _ => []
  | .tgeu _ _ _ => []
  | .tlt _ _ _ => []
  | .tltu _ _ _ => []
  | .teq _ _ _ => []
  | .tne _ _ _ => []
  | .tgei _ _ => []
  | .tgeiu _ _ => []
  | .tlti _ _ => []
  | .tltiu _ _ => []
  | .teqi _ _ => []
  | .tnei _ _ => []
  | .syscall _ => []
  | .brk _ => []
  | .cop0 _ => []
  | .cop1 _ => []
  | .cop3 _ => []
  | .lwc1 _ _ _ => []
  | .swc1 _ _ _ => []
  | .ldc1 _ _ _ => []
  | .sdc1 _ _ _ => []
  | .lwc2 _ _ _ => []
  | .swc2 _ _ _ => []
  | .ldc2 _ _ _ => []
  | .sdc2 _ _ _ => []
  | .lwc3 _ _ _ => []
  | .swc3 _ _ _ => []
  | .mfc2 _ => []
  | .mtc2 _ => []
  | .bc2f _ => []
  | .bc2t _ => []
  | .bc2fl _ => []
  | .bc2tl _ => []
  | .cfvu _ _ => []
  | .ctvu _ _ => []
  | .vextV vd vt _ => [vd, vt]
  | .vinsS _ vd _ => [vd]
  | .vextS _ vd _ => [vd]
  | .lbaiV vd _ _ => [vd]
  | .lhaiV vd _ _ => [vd]
  | .lwaiV vd _ _ => [vd]
  | .lbuaiV vd _ _ => [vd]
  | .lhuaiV vd _ _ => [vd]
  | .lbxV vd _ vt => [vd, vt]
  | .lhxV vd _ vt => [vd, vt]
  | .lwxV vd _ vt => [vd, vt]
  | .lbuxV vd _ vt => [vd, vt]
  | .lhuxV vd _ vt => [vd, vt]
  | .lbstV vd _ _ => [vd]
  | .lhstV vd _ _ => [vd]
  | .lwstV vd _ _ => [vd]
  | .lbustV vd _ _ => [vd]
  | .lhustV vd _ _ => [vd]
  | .sbaiV vd _ _ => [vd]
  | .shaiV vd _ _ => [vd]
  | .swaiV vd _ _ => [vd]
  | .sbxV vd _ vt => [vd, vt]
  | .shxV vd _ vt => [vd, vt]
  | .swxV vd _ vt => [vd, vt]
  | .sbstV vd _ _ => [vd]
  | .shstV vd _ _ => [vd]
  | .swstV vd _ _ => [vd]
  | .andVv vw vd vt => [vw, vd, vt]
  | .andVs vw vd _ => [vw, vd]
  | .orVv vw vd vt => [vw, vd, vt]
  | .orVs vw vd _ => [vw, vd]
  | .xorVv vw vd vt => [vw, vd, vt]
  | .xorVs vw vd _ => [vw, vd]
  | .norVv vw vd vt => [vw, vd, vt]
  | .norVs vw vd _ => [vw, vd]
  | .addVv vw vd vt => [vw, vd, vt]
  | .addVs vw vd _ => [vw, vd]
  | .adduVv vw vd vt => [vw, vd, vt]
  | .adduVs vw vd _ => [vw, vd]
  | .subVv vw vd vt => [vw, vd, vt]
  | .subVs vw vd _ => [vw, vd]
  | .subSv vw _ vd => [vw, vd]
  | .subuVv vw vd vt => [vw, vd, vt]
  | .subuVs vw vd _ => [vw, vd]
  | .subuSv vw _ vd => [vw, vd]
  | .sllvVv vw vd vt => [vw, vd, vt]
  | .sllvVs vw vd _ => [vw, vd]
  | .sllvSv vw _ vd => [vw, vd]
  | .sravVv vw vd vt => [vw, vd, vt]
  | .sravVs vw vd _ => [vw, vd]
  | .sravSv vw _ vd => [vw, vd]
  | .srlvVv vw vd vt => [vw, vd, vt]
  | .srlvVs vw vd _ => [vw, vd]
  | .srlvSv vw _ vd => [vw, vd]
  | .sltVv vw vd vt => [vw, vd, vt]
  | .sltVs vw vd _ => [vw, vd]
  | .sltSv vw _ vd => [vw, vd]
  | .sltuVv vw vd vt => [vw, vd, vt]
  | .sltuVs vw vd _ => [vw, vd]
  | .sltuSv vw _ vd => [vw, vd]
  | .seqVv vw vd vt => [vw, vd, vt]
  | .seqVs vw vd _ => [vw, vd]
  | .fltVv vd vt => [vd, vt]
  | .fltVs vd _ => [vd]
  | .fltSv _ vd => [vd]
  | .fltuVv vd vt => [vd, vt]
  | .fltuVs vd _ => [vd]
  | .fltuSv _ vd => [vd]
  | .feqVv vd vt => [vd, vt]
  | .feqVs vd _ => [vd]
  | .cmvnezVv vw vd vt => [vw, vd, vt]
  | .cmvgezVv vw vd vt => [vw, vd, vt]
  | .cmvlezVv vw vd vt => [vw, vd, vt]
  | .cmveqzVv vw vd vt => [vw, vd, vt]
  | .cmvltzVv vw vd vt => [vw, vd, vt]
  | .cmvgtzVv vw vd vt => [vw, vd, vt]
  | .cmvnezVs vw vd _ => [vw, vd]
  | .cmvgezVs vw vd _ => [vw, vd]
  | .cmvlezVs vw vd _ => [vw, vd]
  | .cmveqzVs vw vd _ => [vw, vd]
  | .cmvltzVs vw vd _ => [vw, vd]
  | .cmvgtzVs vw vd _ => [vw, vd]
  | .fxaddVv vw vd vt _ => [vw, vd, vt]
  | .fxaddVs vw vd _ _ => [vw, vd]
  | .fxaddSv vw _ vd _ => [vw, vd]
  | .fxsubVv vw vd vt _ => [vw, vd, vt]
  | .fxsubVs vw vd _ _ => [vw, vd]
  | .fxsubSv vw _ vd _ => [vw, vd]
  | .fxmulVv vw vd vt _ => [vw, vd, vt]
  | .fxmulVs vw vd _ _ => [vw, vd]
  | .fxmulSv vw _ vd _ => [vw, vd]

/-- The instruction the decoder reads from a row's word: the word is laid out in memory in the
default byte order and given to `decodeBytes`. -/
def decodeTableWord (nbits w : Nat) : Option Instr :=
  match decodeBytes true (split true 4 (BitVec.ofNat 32 (w % 2 ^ nbits))) with
  | .instr i => some i
  | _ => none

end Sys2Proof
end

