-- ==== Sys2Proof/Machine/State.lean ====
section
/-! DEFINITION. The state of the machine (files 10, 20 and 60 of the spec), the reasons a step can
stop, and the state after reset. -/

namespace Sys2Proof.Machine

/-- One element list of a vector register (R24). -/
abbrev VecReg := Vector Word Config.mvl

/-- Memory (R60): the listed bytes; every other byte reads as `Config.fillByte`. -/
abbrev Memory := List Host.Cell

/-- The agents that perform memory operations (R73): the scalar unit and the vector memory
pipelines. -/
inductive Agent where
  | scalar
  | vector
  deriving DecidableEq, Repr

/-- Whether an access reads or writes its bytes. -/
inductive AccessKind where
  | read
  | write
  deriving DecidableEq, Repr

/-- One list of unfinished loads for every element of a vector register. -/
abbrev WaitReg := Vector (List Nat) Config.mvl

/-- One access to the `size` bytes from `addr` (R69): by a scalar instruction, or by one element of a
vector instruction. -/
structure Access where
  agent : Agent
  kind : AccessKind
  addr : Word
  size : Nat
  /-- The unfinished loads, by their places in `State.pending`, whose values it uses, so that it comes
  after them (R75, log entry 16). -/
  after : List Nat
  deriving DecidableEq, Repr

/-- A run of `size` bytes from `addr`. -/
structure Span where
  addr : Word
  size : Nat
  deriving DecidableEq, Repr

/-- The jump or branch whose delay slot the instruction at `pc` is (R178, R441). -/
structure Slot where
  /-- The address of the jump or branch. -/
  branch : Word
  /-- Whether it was taken. -/
  taken : Bool
  deriving DecidableEq, Repr

/-- The exceptions of R431, each with the item of its last column. -/
inductive Exception where
  /-- R432: the instruction word. -/
  | reservedInstruction (word : Word)
  /-- R433: the coprocessor number. -/
  | coprocessorUnusable (z : BitVec 2)
  /-- R434. -/
  | vectorOperation
  /-- R435: the offending address. -/
  | vectorAddress (a : Word)
  /-- R436: a misaligned scalar load or instruction fetch. -/
  | addressErrorLoad (a : Word)
  /-- R436: a misaligned scalar store. -/
  | addressErrorStore (a : Word)
  /-- R122, R124, R138. -/
  | integerOverflow
  /-- R213. -/
  | syscall
  /-- R214. -/
  | breakpoint
  /-- R200 to R212. -/
  | trap
  /-- R437: the first address that is not backed. -/
  | busError (a : Word)
  deriving DecidableEq, Repr

/-- The outcome `Trap(E, info, epc, bd)` of R440 and R441. -/
structure TrapOutcome where
  exc : Exception
  epc : Word
  bd : Bool
  deriving DecidableEq, Repr

/-- Why the machine stops with a fault. -/
inductive Fault where
  /-- Raised by a step of a machine that has taken an exception: the trap is a terminal outcome and no
  handler exists (R440, R443). Safe: the model stops where a platform with `CP0` would go on. -/
  | trapped (t : TrapOutcome)
  /-- Raised by a memory instruction whose byte at `a` an earlier, unsynchronised access of another
  agent touches, one of them writing it (R74 case 4, R475, U14). Safe: the model stops where the
  hardware goes on with one of several values. -/
  | memoryRace (a : Word)
  deriving DecidableEq, Repr

/-- Why the model gives an instruction no meaning. -/
inductive Refusal where
  /-- An instruction whose meaning is not written yet; raised by no arm once all meanings stand.
  Safe. -/
  | notModelled (mnemonic : String)
  /-- Raised by the rows of major opcode 16: coprocessor 0 is implementation dependent and no source
  describes it (R234, U11). Safe. -/
  | coprocessor0Undefined
  /-- Raised by the floating-point operations (bit 25 of a word of major opcode 17) on a machine with an
  FPU: their meaning must be supplied from outside the spec (R7, R226, D21). Safe. -/
  | fpuOutsideSpec
  /-- Raised by LDC1 and SDC1 on a machine with an FPU when `rt` is odd: a doubleword is an even and
  odd pair of registers (log entry 50). Safe. -/
  | fpuOddPair
  /-- Raised by CFVU and CTVU when `cs` names no control register (R29, R241, R242, U1). Safe. -/
  | invalidControlRegister
  /-- Raised by the fixed-point instructions on `clipam = 11` (R385, U2). Safe. -/
  | clipamReserved
  /-- Raised by the fixed-point instructions on a nonzero unused bit of the configuration word
  (R381, R382, U5). Safe. -/
  | configUnusedBits
  /-- Raised by FXMUL on T0 when `shlza`, `shlv`, `shrv` or `lures` is set (R417, U5). Safe. -/
  | t0FieldMustBeZero
  /-- Raised by a unit-stride load or store with `rd = rt` (R264, R477, U3). Safe. -/
  | incrementIsBase
  /-- Raised by VEXT.V when the wrapped sum passes the range check although the source elements lie
  outside the register (R251, U4). Safe. -/
  | extractOutsideRegister
  /-- Raised by a scalar word with a nonzero bit in an unused field (R121, U9): at decode, and by the
  moves of coprocessor 1 (R221 to R224) when they run. Safe. -/
  | unusedFieldBits (mnemonic : String)
  /-- Raised by a jump or branch in a branch delay slot (R178, U10). Safe. -/
  | branchInDelaySlot
  /-- Raised by JALR with `rd = rs` (R182) and by a linking branch that tests `$31` (R189, R190).
  Safe. -/
  | linkRegisterIsSource
  /-- Raised at fetch when the program runs on from `0xFFFFFFFC` to 0 (R23). Safe. -/
  | sequentialWrap
  /-- Raised at fetch when a byte of the instruction has been stored to (R77, R479, U20). Safe. -/
  | modifiedCode
  deriving DecidableEq, Repr

/-- Everything the spec gives the machine (files 10, 20, 41), the open parameters of R11, and the
model's own fields, which are marked so. -/
structure State where
  /-- The open parameters (R11); no instruction changes them. -/
  params : Params
  /-- The general registers `x[0..31]` (R20); `x[0]` is read and written through `State.reg`. -/
  regs : Vector Word 32
  /-- `HI` (R21). -/
  hi : Word
  /-- `LO` (R21). -/
  lo : Word
  /-- `HI` holds a result of a multiply or divide (R153); the model's own field. -/
  hiFromMul : Bool
  /-- `LO` holds a result of a multiply or divide (R151); the model's own field. -/
  loFromMul : Bool
  /-- The address of the executing instruction (R22). -/
  pc : Word
  /-- The address of the instruction that executes next (R22). -/
  npc : Word
  /-- The jump or branch just executed, when the instruction at `pc` is its delay slot (R178, R441). -/
  slot : Option Slot
  /-- `pc` was reached by running on past `0xFFFFFFFC` (R23); the model's own field. -/
  acrossTop : Bool
  /-- The vector registers (R24); register 0 is read and written through `State.vreg`. -/
  vregs : Vector VecReg Config.nvreg
  /-- The unfinished loads that the value of each vector register element was computed from, by their
  places in `pending` (R75, R474); the model's own field. -/
  waits : Vector WaitReg Config.nvreg
  /-- vcr1, `vcount` (R32): the value the last read of the counter returned. -/
  vcount : Word
  /-- vcr2, `vlr` (R33). -/
  vlr : BitVec 8
  /-- vcr4, `vcond` (R36). -/
  vcond : Word
  /-- vcr8, `vovf` (R39). -/
  vovf : Word
  /-- vcr12, `vsat` (R41). -/
  vsat : Word
  /-- `CU2`, coprocessor 2 usable (R44); no instruction changes it. -/
  cu2 : Bool
  /-- The floating-point general registers, with `HAS_FPU` (R46). -/
  fpr : Vector Word 32
  /-- `FCR0`, the floating-point implementation register, with `HAS_FPU` (R46). -/
  fcr0 : Word
  /-- `FCR31`, the floating-point control and status register, with `HAS_FPU` (R46). -/
  fcr31 : Word
  /-- `LLbit` (R47). -/
  llBit : Bool
  /-- `LLaddr` (R175). -/
  llAddr : Word
  /-- No other load, store or vector memory instruction since the last LL (R176); the model's own
  field. -/
  llClean : Bool
  /-- Memory (R60). -/
  mem : Memory
  /-- The accesses since the last SYNC, which may be unfinished (R48, R74). -/
  pending : List Access
  /-- The bytes stored to so far (R77); the model's own field. -/
  stored : List Span
  /-- How many free values have been drawn; the model's own field. -/
  draws : Nat
  /-- The terminal outcome, when an exception has been taken (R440). -/
  trap : Option TrapOutcome
  deriving DecidableEq, Repr

/-- The outcome of one instruction. -/
abbrev Result := Host.Outcome State Fault Refusal

/-- The machine right after reset, with given open parameters and entry address (R49, R470). Hardwired
state is as R49 says; every value R49 leaves unspecified is the one log entries 5, 7 and 49 name. -/
def State.resetWith (p : Params) (entry : Word) : State where
  params := p
  regs := Vector.replicate 32 0#32
  hi := 0
  lo := 0
  hiFromMul := false
  loFromMul := false
  pc := entry
  npc := entry + 4#32
  slot := none
  acrossTop := false
  vregs := Vector.replicate Config.nvreg (Vector.replicate Config.mvl 0#32)
  waits := Vector.replicate Config.nvreg (Vector.replicate Config.mvl [])
  vcount := 0
  vlr := 0
  vcond := 0
  vovf := 0
  vsat := 0
  cu2 := true
  fpr := Vector.replicate 32 0#32
  fcr0 := 0
  fcr31 := 0
  llBit := false
  llAddr := 0
  llClean := false
  mem := []
  pending := []
  stored := []
  draws := 0
  trap := none

/-- The machine right after reset, with the parameters the spec recommends or takes (R11) and the entry
address of log entry 4. -/
def State.reset : State := State.resetWith {} Config.resetPc

end Sys2Proof.Machine
end

