-- ==== Sys2Proof/Machine/Ops.lean ====
section
/-! DEFINITION. The named operations over registers, the program counter, memory and exceptions that
every meaning is written in. -/

namespace Sys2Proof.Machine

/-! ### General registers (R20) -/

/-- `x[r]`; `x[0]` reads as zero. -/
def State.reg (s : State) (r : Reg) : Word :=
  if r = 0#5 then 0#32 else s.regs[r.toNat]'r.isLt

/-- `x[r] <- v`; a write to `x[0]` is discarded. -/
def State.setReg (s : State) (r : Reg) (v : Word) : State :=
  if r = 0#5 then s else { s with regs := s.regs.set r.toNat v r.isLt }

/-! ### Vector registers (R24, R25, R27) -/

/-- The elements of vector register `k`; register 0 reads as zeros (R25). A number `>= NVREG` never
gets here: the instruction is reserved (R106). -/
def State.vreg (s : State) (k : VReg) : VecReg :=
  if k = 0#5 then Vector.replicate Config.mvl 0#32
  else (s.vregs[k.toNat]?).getD (Vector.replicate Config.mvl 0#32)

/-- `v[k][i]`. -/
def State.elem (s : State) (k : VReg) (i : Elem) : Word := (s.vreg k)[i]

/-- Write all of vector register `k`; writes to register 0 are ignored (R25). -/
def State.setVreg (s : State) (k : VReg) (v : VecReg) : State :=
  if k = 0#5 then s else { s with vregs := s.vregs.setIfInBounds k.toNat v }

/-- For each element of a vector, unfinished loads, by their places in `State.pending`. -/
abbrev Waits := Elem → List Nat

/-- No unfinished load. -/
def noWaits : Waits := fun _ => []

/-- The unfinished loads that the value of `v[k][i]` was computed from (R75, R474). DEDUCED (log entry
16), marked 'unsafe'. -/
def State.waitsOf (s : State) (k : VReg) : Waits := fun i =>
  if k = 0#5 then [] else ((s.waits[k.toNat]?).getD (Vector.replicate Config.mvl []))[i]

/-- The elements `i < n` of vector register `k` are now computed from the loads `d i`. -/
def State.setWaits (s : State) (k : VReg) (n : Nat) (d : Waits) : State :=
  let w : WaitReg := Vector.ofFn fun i => if i.val < n then d i else s.waitsOf k i
  if k = 0#5 then s else { s with waits := s.waits.setIfInBounds k.toNat w }

/-- `old` with the elements `i < n` that `write` selects replaced by `f i`; elements `n ..` are
unchanged (R27). -/
def updateWhere (old : VecReg) (n : Nat) (write : Elem → Bool) (f : Elem → Word) : VecReg :=
  Vector.ofFn fun i => if i.val < n && write i then f i else old[i]

/-- `v[k][i] <- f i` for every `i < n` that `write` selects. A selected element comes from the loads `d i`
of its value and its choice; one that is not, from those it came from and the loads `d i` of its choice. -/
def State.setElemsWhere (s : State) (k : VReg) (n : Nat) (write : Elem → Bool) (f : Elem → Word)
    (d : Waits) : State :=
  (s.setVreg k (updateWhere (s.vreg k) n write f)).setWaits k n fun i =>
    if write i then d i else d i ∪ s.waitsOf k i

/-- `v[k][i] <- f i` for `i` in `0 .. n-1`, computed from the loads `d i`. -/
def State.setElems (s : State) (k : VReg) (n : Nat) (f : Elem → Word) (d : Waits) : State :=
  s.setElemsWhere k n (fun _ => true) f d

/-! ### The program counter (R22, R23, R178, R191) -/

/-- The last instruction address, after which the sequential successor wraps (R23). -/
def topPc : Word := 0xFFFFFFFC#32

/-- The instruction at `pc` is the delay slot of a taken jump or branch. -/
def State.inTakenSlot (s : State) : Bool :=
  match s.slot with
  | some b => b.taken
  | none => false

/-- `pc <- npc; npc <- npc + 4` (R22). -/
def State.advance (s : State) : State :=
  { s with
    pc := s.npc, npc := s.npc + 4#32, slot := none
    acrossTop := s.pc == topPc && !s.inTakenSlot }

/-- A taken jump or branch: `pc <- npc; npc <- target` (R178). -/
def State.takeBranch (s : State) (target : Word) : State :=
  { s with pc := s.npc, npc := target, slot := some ⟨s.pc, true⟩, acrossTop := s.pc == topPc }

/-- An untaken branch: `pc <- npc; npc <- npc + 4`, the next instruction still being its delay slot
(R178, R441). -/
def State.passBranch (s : State) : State :=
  { s with pc := s.npc, npc := s.npc + 4#32, slot := some ⟨s.pc, false⟩, acrossTop := s.pc == topPc }

/-- An untaken likely branch: the delay slot is nullified, `pc <- npc + 4; npc <- npc + 8` (R191). -/
def State.nullifySlot (s : State) : State :=
  { s with
    pc := s.npc + 4#32, npc := s.npc + 8#32, slot := none
    acrossTop := s.pc == topPc || s.pc == topPc - 4#32 }

/-! ### Free values -/

/-- The free value number `k` of the ones an instruction draws. -/
def State.draw (s : State) (k : Nat) : Word := Config.freeWord (s.draws + k)

/-- The machine after an instruction that drew `n` free values. -/
def State.consume (s : State) (n : Nat) : State := { s with draws := s.draws + n }

/-! ### Taking an exception (R439, R440, R441) -/

/-- The address an exception reports: the jump or branch when the instruction is in its delay slot,
else the instruction (R441). -/
def State.epc (s : State) : Word :=
  match s.slot with
  | some b => b.branch
  | none => s.pc

/-- The outcome of an exception taken by the instruction at `pc` (R440, R441). -/
def State.trapOutcome (s : State) (e : Exception) : TrapOutcome := ⟨e, s.epc, s.slot.isSome⟩

/-- `raise E(info)`: the machine ends with the outcome `Trap(E, info, epc, bd)`, and no other state
changes (R439, R440). -/
def raise (e : Exception) (s : State) : Result :=
  .next { s with trap := some (s.trapOutcome e) }

/-! ### Memory (R60, R64, R65) -/

/-- The byte at address `a`. -/
def Memory.read : Memory → Nat → Byte
  | [], _ => Config.fillByte
  | (b, v) :: m, a => if b = a then v else Memory.read m a

/-- Memory with byte `v` at address `a`, in canonical form. -/
def Memory.write : Memory → Nat → Byte → Memory
  | [], a, v => if v = Config.fillByte then [] else [(a, v)]
  | (b, u) :: m, a, v =>
    if a < b then (if v = Config.fillByte then (b, u) :: m else (a, v) :: (b, u) :: m)
    else if a = b then (if v = Config.fillByte then m else (a, v) :: m)
    else (b, u) :: Memory.write m a v

/-- The canonical form, for addresses from `lo` on. -/
def Memory.wfFrom : Nat → Memory → Bool
  | _, [] => true
  | lo, (a, v) :: m =>
    decide (lo ≤ a) && decide (a < 2 ^ 32) && decide (v ≠ Config.fillByte) && Memory.wfFrom (a + 1) m

/-- The canonical form: addresses strictly rising and below 2^32, no entry equal to what an unlisted
address reads as. -/
def Memory.wf (m : Memory) : Bool := Memory.wfFrom 0 m

/-- The byte at the 32-bit address `a`. -/
def State.byte (s : State) (a : Word) : Byte := Memory.read s.mem a.toNat

/-- The address of byte `k` of an access at `a`. -/
def byteAddr (a : Word) (k : Nat) : Word := a + BitVec.ofNat 32 k

/-- The `n` bytes from address `a`. -/
def State.bytes (s : State) (a : Word) (n : Nat) : List Byte :=
  (List.range n).map fun k => s.byte (byteAddr a k)

/-- `MemRead(a, n)` (R13, R64), zero-extended to 32 bits. -/
def State.load (s : State) (a : Word) (n : Nat) : Word :=
  assemble s.params.bigEndian (s.bytes a n)

/-- Store a string of bytes from address `a` up. -/
def Memory.writeBytes (m : Memory) (a : Word) : List Byte → Memory
  | [] => m
  | v :: vs => Memory.writeBytes (Memory.write m a.toNat v) (a + 1#32) vs

/-- `MemWrite(a, n, w)` (R13, R64). -/
def State.store (s : State) (a : Word) (n : Nat) (w : Word) : State :=
  { s with mem := Memory.writeBytes s.mem a (split s.params.bigEndian n w) }

/-! ### Alignment and backing (R67, R68, R437) -/

/-- `a` is not a multiple of `n`, for `n` of 1, 2, 4. -/
def misaligned (a : Word) (n : Nat) : Bool := a.toNat % n != 0

/-- `MemMap` backs the byte address `a` (R437). -/
def Params.backs (p : Params) (a : Word) : Bool :=
  p.backed.any fun r => decide (r.base ≤ a.toNat) && decide (a.toNat < r.base + r.size)

/-- The first byte of an access that `MemMap` does not back (R437). -/
def Params.firstUnbacked (p : Params) (a : Word) (n : Nat) : Option Word :=
  ((List.range n).map (byteAddr a)).find? fun b => !Params.backs p b

/-! ### Memory ordering (R73 to R75, R475) -/

/-- Two runs of bytes share a byte. -/
def overlaps (a : Word) (n : Nat) (b : Word) (m : Nat) : Bool :=
  decide (a.toNat < b.toNat + m) && decide (b.toNat < a.toNat + n)

/-- The pair is one of R74 case 4: a vector instruction takes part, the two share a byte, and at least
one writes. -/
def conflicts (old new : Access) : Bool :=
  (old.agent == .vector || new.agent == .vector) &&
  (old.kind == .write || new.kind == .write) &&
  overlaps old.addr old.size new.addr new.size

/-- The access conflicts with an unfinished one (no SYNC lies between them) that is not a load whose
value it uses: a register dependence is honoured without SYNC (R74, R75). -/
def State.races (s : State) (x : Access) : Bool :=
  s.pending.zipIdx.any fun old => conflicts old.1 x && !x.after.contains old.2

/-- The first of the accesses `new` that races with an unfinished one, with `NEEDS_SYNC` (R74). -/
def State.firstRace (s : State) (new : List Access) : Option Access :=
  if s.params.needsSync then new.find? s.races else none

/-- The bytes the accesses store to. -/
def writtenSpans (new : List Access) : List Span :=
  (new.filter fun x => x.kind == .write).map fun x => ⟨x.addr, x.size⟩

/-- Record the accesses of an instruction: they are unfinished until a SYNC (R74), the bytes written
may no longer be fetched (R77), and an LL before them is no longer clean (R176). -/
def State.record (s : State) (new : List Access) : State :=
  { s with
    pending := s.pending ++ new, stored := s.stored ++ writtenSpans new, llClean := false }

/-- What every memory instruction does with its accesses before it transfers anything: the bus check of
R437, then the ordering rule of R74, then `k` on the machine that has recorded them. -/
def State.accessing (s : State) (new : List Access) (k : State → Result) : Result :=
  match new.findSome? fun x => Params.firstUnbacked s.params x.addr x.size with
  | some a => raise (.busError a) s
  | none =>
    match s.firstRace new with
    | some x => .fault (.memoryRace x.addr)
    | none => k (s.record new)

/-- SYNC (R74 case 2, R177): every earlier access is complete, so that nothing waits for one. -/
def State.syncMemory (s : State) : State :=
  { s with pending := [], waits := Vector.replicate Config.nvreg (Vector.replicate Config.mvl []) }

/-! ### Issue of coprocessor instructions (R15, R106, R433) -/

/-- A vector register field names a register that does not exist (R106). -/
def namesAbsentVreg (i : Instr) : Bool :=
  i.vregs.any fun k => decide (Config.nvreg ≤ k.toNat)

/-- The coprocessor-usable check and the reserved-encoding check of R433 and R106, in the order of
R438. -/
def vuIssue (i : Instr) (s : State) (k : Result) : Result :=
  if !s.cu2 then raise (.coprocessorUnusable 2#2) s
  else if namesAbsentVreg i then raise (.reservedInstruction (encode i)) s
  else k

/-- `VecIssue()` (R15): the preamble of every instruction that reads `vlr`; `k` gets `n`. -/
def vecIssue (i : Instr) (s : State) (k : Nat → Result) : Result :=
  vuIssue i s <|
    if Config.mvl < s.vlr.toNat then raise .vectorOperation s else k s.vlr.toNat

end Sys2Proof.Machine
end

