-- ==== Sys2Proof/Machine/Operands.lean ====
section
/-! DEFINITION. The operand forms: immediates, effective and element addresses, branch targets, the three
vector operand orders, and the widening of loaded values. -/

namespace Sys2Proof.Machine

/-! ### Immediates and addresses of the scalar unit (R92, R162, R178) -/

/-- `sext_32(imm)`. -/
def sextImm (imm : BitVec 16) : Word := imm.signExtend 32

/-- `zext_32(imm)`. -/
def zextImm (imm : BitVec 16) : Word := imm.setWidth 32

/-- The effective address `(x[base] + sext_32(offset))[31:0]` (R162). -/
def State.effAddr (s : State) (base : Reg) (offset : BitVec 16) : Word :=
  s.reg base + sextImm offset

/-- The target of a conditional branch at `P = pc`: `(P + 4 + sext_32(offset || 00))[31:0]` (R178). -/
def State.branchTarget (s : State) (offset : BitVec 16) : Word :=
  s.pc + 4#32 + (offset ++ 0#2).signExtend 32

/-- The target of J and JAL at `P = pc`: `(P + 4)[31:28] || target || 00` (R179). -/
def State.jumpTarget (s : State) (target : BitVec 26) : Word :=
  (s.pc + 4#32).extractLsb' 28 4 ++ target ++ 0#2

/-- The value a linking jump or branch writes: `P + 8` (R178). -/
def State.linkValue (s : State) : Word := s.pc + 8#32

/-- The shift count in the low five bits of a word (R135, R320). -/
def shiftCount (w : Word) : Nat := (w.extractLsb' 0 5).toNat

/-! ### Widening of loaded values (R66) -/

/-- `sext_32` of the low byte. -/
def sextByte (w : Word) : Word := (w.setWidth 8).signExtend 32
/-- `zext_32` of the low byte. -/
def zextByte (w : Word) : Word := (w.setWidth 8).setWidth 32
/-- `sext_32` of the low halfword. -/
def sextHalf (w : Word) : Word := (w.setWidth 16).signExtend 32
/-- `zext_32` of the low halfword. -/
def zextHalf (w : Word) : Word := (w.setWidth 16).setWidth 32

/-- The widths of a vector load or store with the widening of a load (R66, R260). -/
inductive Width where
  | byte
  | half
  | word
  | byteU
  | halfU
  deriving DecidableEq, Repr

/-- The element size `E` in bytes (R261). -/
def Width.size : Width → Nat
  | .byte => 1
  | .half => 2
  | .word => 4
  | .byteU => 1
  | .halfU => 2

/-- The 32-bit element made of a loaded item (R66). -/
def Width.widen : Width → Word → Word
  | .byte => sextByte
  | .half => sextHalf
  | .word => id
  | .byteU => zextByte
  | .halfU => zextHalf

/-! ### The unaligned word accesses (R168, R169, R173, R174) -/

/-- The word that holds address `a`: `a - a[1:0]`. -/
def wordBase (a : Word) : Word := a &&& ~~~3#32

/-- `a[1:0]`. -/
def byteInWord (a : Word) : Nat := a.toNat % 4

/-- `e` of LWL and SWL: the low-order bytes kept (R168). -/
def leftKept (bigEndian : Bool) (a : Word) : Nat :=
  if bigEndian then byteInWord a else 3 - byteInWord a

/-- `f` of LWR and SWR: the high-order bytes kept (R169). -/
def rightKept (bigEndian : Bool) (a : Word) : Nat :=
  if bigEndian then 3 - byteInWord a else byteInWord a

/-- The result of LWL from the aligned word `w` and the old register (R168). -/
def mergeLeft (e : Nat) (w old : Word) : Word :=
  (w <<< (8 * e)) ||| (old &&& ~~~(0xFFFFFFFF#32 <<< (8 * e)))

/-- The result of LWR from the aligned word `w` and the old register (R169). -/
def mergeRight (f : Nat) (w old : Word) : Word :=
  (old &&& ~~~(0xFFFFFFFF#32 >>> (8 * f))) ||| (w >>> (8 * f))

/-- The lowest address SWL writes: its `4 - e` bytes run up to the end of the word when big-endian, and
from the start of the word when little-endian (R173). -/
def leftStart (bigEndian : Bool) (a : Word) : Word := if bigEndian then a else wordBase a

/-- The lowest address SWR writes (R174). -/
def rightStart (bigEndian : Bool) (a : Word) : Word := if bigEndian then wordBase a else a

/-! ### Vector operands (R114, R301) -/

/-- The operands of every element: their values `(a, b)`, and the unfinished loads each came from. -/
structure Pairs where
  val : Elem → Word × Word
  waitsA : Waits
  waitsB : Waits

/-- The unfinished loads that a result computed from the selected operands, `(a, b)`, comes from (R75). -/
def Pairs.waitsOn (ab : Pairs) (used : Elem → Bool × Bool) : Waits := fun i =>
  (if (used i).1 then ab.waitsA i else []) ∪ (if (used i).2 then ab.waitsB i else [])

/-- The unfinished loads that a result computed from both operands comes from (R75). -/
def Pairs.waits (ab : Pairs) : Waits := ab.waitsOn fun _ => (true, true)

/-- The `.vv` form: `(v[vd][i], v[vt][i])`. -/
def State.vv (s : State) (vd vt : VReg) : Pairs where
  val i := (s.elem vd i, s.elem vt i)
  waitsA := s.waitsOf vd
  waitsB := s.waitsOf vt

/-- The `.vs` form: `(v[vd][i], x[rt])`. -/
def State.vs (s : State) (vd : VReg) (rt : Reg) : Pairs where
  val i := (s.elem vd i, s.reg rt)
  waitsA := s.waitsOf vd
  waitsB := noWaits

/-- The `.sv` form: `(x[rt], v[vd][i])`. -/
def State.sv (s : State) (rt : Reg) (vd : VReg) : Pairs where
  val i := (s.reg rt, s.elem vd i)
  waitsA := noWaits
  waitsB := s.waitsOf vd

/-! ### Element addresses (R261) -/

/-- The addresses of the elements of a vector load or store. -/
abbrev Addrs := Elem → Word

/-- Unit stride: `(b + E*i)[31:0]`. -/
def State.unitAddrs (s : State) (rd : Reg) (size : Nat) : Addrs :=
  fun i => s.reg rd + BitVec.ofNat 32 (size * i.val)

/-- Strided: `(b + x[rt]*i)[31:0]`. -/
def State.strideAddrs (s : State) (rd rt : Reg) : Addrs :=
  fun i => s.reg rd + s.reg rt * BitVec.ofNat 32 i.val

/-- Indexed: `(b + v[vt][i])[31:0]`. -/
def State.indexAddrs (s : State) (rd : Reg) (vt : VReg) : Addrs :=
  fun i => s.reg rd + s.elem vt i

/-- The elements `0 .. n-1`. -/
def elems (n : Nat) : List Elem := (List.finRange Config.mvl).filter fun i => i.val < n

/-- The index of VEXT.V, VINS.S and VEXT.S: `zext(x[rd][7:0])` (R250, D13). -/
def State.index (s : State) (rd : Reg) : Nat := ((s.reg rd).setWidth 8).toNat

end Sys2Proof.Machine
end

