-- ==== Sys2Proof/Machine/Flags.lean ====
section
/-! DEFINITION. Signed overflow, comparisons, and the three flag registers vcond, vovf and vsat. -/

namespace Sys2Proof.Machine

/-! ### Overflow (R122, R124, R310, R314) -/

/-- Bits 32 and 31 of a 33-bit sum or difference differ: it does not fit 32 signed bits. -/
def overflows (t : BitVec 33) : Bool := t.getLsbD 32 != t.getLsbD 31

/-- The exact signed sum in 33 bits: `sext_33(a) + sext_33(b)`. -/
def sum33 (a b : Word) : BitVec 33 := a.signExtend 33 + b.signExtend 33

/-- The exact signed difference in 33 bits: `sext_33(a) - sext_33(b)`. -/
def diff33 (a b : Word) : BitVec 33 := a.signExtend 33 - b.signExtend 33

/-- Signed overflow of an addition. -/
def addOverflows (a b : Word) : Bool := overflows (sum33 a b)

/-- Signed overflow of a subtraction. -/
def subOverflows (a b : Word) : Bool := overflows (diff33 a b)

/-! ### Comparisons (R130, R131, R341 to R348, R357) -/

/-- The word 1 when a comparison holds, 0 when it does not. -/
def boolWord (c : Bool) : Word := if c then 1#32 else 0#32

/-- `signed(a) < signed(b)`. -/
def lessSigned (a b : Word) : Bool := decide (a.toInt < b.toInt)

/-- `unsigned(a) < unsigned(b)`. -/
def lessUnsigned (a b : Word) : Bool := decide (a.toNat < b.toNat)

/-- The six conditions of a conditional move on `signed(w)` (R357). -/
inductive ZeroCond where
  | nez
  | gez
  | lez
  | eqz
  | ltz
  | gtz
  deriving DecidableEq, Repr

/-- Whether the condition holds of a signed value. -/
def ZeroCond.holds : ZeroCond → Int → Bool
  | .nez, v => decide (v ≠ 0)
  | .gez, v => decide (0 ≤ v)
  | .lez, v => decide (v ≤ 0)
  | .eqz, v => decide (v = 0)
  | .ltz, v => decide (v < 0)
  | .gtz, v => decide (0 < v)

/-! ### The flag registers (R30, R36, R39, R41) -/

/-- The bits `i < n` for which `p i` holds. -/
def flagMask (n : Nat) (p : Elem → Bool) : Word :=
  BitVec.ofFnLE fun i : Elem => decide (i.val < n) && p i

/-- Sticky flags: the bits are ORed in, none is cleared (R39, R41). -/
def sticky (old : Word) (n : Nat) (p : Elem → Bool) : Word := old ||| flagMask n p

/-- Result flags: bits `0 .. n-1` are replaced, bits `n .. 31` are kept (R37). -/
def replaceFlags (old : Word) (n : Nat) (p : Elem → Bool) : Word :=
  (old &&& ~~~(flagMask n fun _ => true)) ||| flagMask n p

/-- `vovf[i] <- 1` for every `i < n` with `p i`. -/
def State.orVovf (s : State) (n : Nat) (p : Elem → Bool) : State :=
  { s with vovf := sticky s.vovf n p }

/-- `vsat[i] <- 1` for every `i < n` with `p i`. -/
def State.orVsat (s : State) (n : Nat) (p : Elem → Bool) : State :=
  { s with vsat := sticky s.vsat n p }

/-- `vcond[i] <- p i` for every `i < n`. -/
def State.putVcond (s : State) (n : Nat) (p : Elem → Bool) : State :=
  { s with vcond := replaceFlags s.vcond n p }

end Sys2Proof.Machine
end

