-- ==== Sys2Proof/Machine/Branches.lean ====
section
/-! DEFINITION. The jumps and branches (file 41, section 2). -/

namespace Sys2Proof.Machine

/-- A jump or branch in a branch delay slot has no meaning (R178, R472, U10). -/
def notInSlot (s : State) (k : Result) : Result :=
  if s.slot.isSome then .refused .branchInDelaySlot else k

/-- A conditional branch: the delay slot executes either way (R178). -/
def branchIf (taken : Bool) (offset : BitVec 16) (s : State) : Result :=
  notInSlot s (.next (if taken then s.takeBranch (s.branchTarget offset) else s.passBranch))

/-- A likely branch: when not taken the delay slot is nullified (R191). -/
def branchLikelyIf (taken : Bool) (offset : BitVec 16) (s : State) : Result :=
  notInSlot s (.next (if taken then s.takeBranch (s.branchTarget offset) else s.nullifySlot))

/-- The linking branches write `x[31] <- P + 8` whether taken or not; testing `$31` is not allowed
(R189, R190). -/
def linking (rs : Reg) (s : State) (k : State → Result) : Result :=
  notInSlot s (if rs = 31#5 then .refused .linkRegisterIsSource else k (s.setReg 31#5 s.linkValue))

/-- `signed(w) <= 0`. -/
def lez (w : Word) : Bool := ZeroCond.holds .lez w.toInt
/-- `signed(w) > 0`. -/
def gtz (w : Word) : Bool := ZeroCond.holds .gtz w.toInt
/-- `signed(w) < 0`. -/
def ltz (w : Word) : Bool := ZeroCond.holds .ltz w.toInt
/-- `signed(w) >= 0`. -/
def gez (w : Word) : Bool := ZeroCond.holds .gez w.toInt

/-- J, R179: jump within the 256 MB segment of the delay slot. -/
def execJ (target : BitVec 26) (s : State) : Result :=
  notInSlot s (.next (s.takeBranch (s.jumpTarget target)))

/-- JAL, R180: as J, with the link in `x[31]`. -/
def execJal (target : BitVec 26) (s : State) : Result :=
  notInSlot s (.next ((s.setReg 31#5 s.linkValue).takeBranch (s.jumpTarget target)))

/-- JR, R181: jump to the value of `rs`. -/
def execJr (rs : Reg) (s : State) : Result :=
  notInSlot s (.next (s.takeBranch (s.reg rs)))

/-- JALR, R182: jump to the value of `rs`, with the link in `rd`; `rd = rs` is not allowed. -/
def execJalr (rd rs : Reg) (s : State) : Result :=
  notInSlot s <|
    if rd = rs then .refused .linkRegisterIsSource
    else .next ((s.setReg rd s.linkValue).takeBranch (s.reg rs))

/-- BEQ, R183: taken iff `rs = rt`. -/
def execBeq (rs rt : Reg) (offset : BitVec 16) (s : State) : Result :=
  branchIf (s.reg rs == s.reg rt) offset s

/-- BNE, R184: taken iff `rs != rt`. -/
def execBne (rs rt : Reg) (offset : BitVec 16) (s : State) : Result :=
  branchIf (s.reg rs != s.reg rt) offset s

/-- BLEZ, R185: taken iff `rs <= 0`. -/
def execBlez (rs : Reg) (offset : BitVec 16) (s : State) : Result :=
  branchIf (lez (s.reg rs)) offset s

/-- BGTZ, R186: taken iff `rs > 0`. -/
def execBgtz (rs : Reg) (offset : BitVec 16) (s : State) : Result :=
  branchIf (gtz (s.reg rs)) offset s

/-- BLTZ, R187: taken iff `rs < 0`. -/
def execBltz (rs : Reg) (offset : BitVec 16) (s : State) : Result :=
  branchIf (ltz (s.reg rs)) offset s

/-- BGEZ, R188: taken iff `rs >= 0`. -/
def execBgez (rs : Reg) (offset : BitVec 16) (s : State) : Result :=
  branchIf (gez (s.reg rs)) offset s

/-- BLTZAL, R189: taken iff `rs < 0`, linking. -/
def execBltzal (rs : Reg) (offset : BitVec 16) (s : State) : Result :=
  linking rs s (branchIf (ltz (s.reg rs)) offset)

/-- BGEZAL, R190: taken iff `rs >= 0`, linking. -/
def execBgezal (rs : Reg) (offset : BitVec 16) (s : State) : Result :=
  linking rs s (branchIf (gez (s.reg rs)) offset)

/-- BEQL, R192: taken iff `rs = rt`, likely. -/
def execBeql (rs rt : Reg) (offset : BitVec 16) (s : State) : Result :=
  branchLikelyIf (s.reg rs == s.reg rt) offset s

/-- BNEL, R193: taken iff `rs != rt`, likely. -/
def execBnel (rs rt : Reg) (offset : BitVec 16) (s : State) : Result :=
  branchLikelyIf (s.reg rs != s.reg rt) offset s

/-- BLEZL, R194: taken iff `rs <= 0`, likely. -/
def execBlezl (rs : Reg) (offset : BitVec 16) (s : State) : Result :=
  branchLikelyIf (lez (s.reg rs)) offset s

/-- BGTZL, R195: taken iff `rs > 0`, likely. -/
def execBgtzl (rs : Reg) (offset : BitVec 16) (s : State) : Result :=
  branchLikelyIf (gtz (s.reg rs)) offset s

/-- BLTZL, R196: taken iff `rs < 0`, likely. -/
def execBltzl (rs : Reg) (offset : BitVec 16) (s : State) : Result :=
  branchLikelyIf (ltz (s.reg rs)) offset s

/-- BGEZL, R197: taken iff `rs >= 0`, likely. -/
def execBgezl (rs : Reg) (offset : BitVec 16) (s : State) : Result :=
  branchLikelyIf (gez (s.reg rs)) offset s

/-- BLTZALL, R198: taken iff `rs < 0`, linking, likely. -/
def execBltzall (rs : Reg) (offset : BitVec 16) (s : State) : Result :=
  linking rs s (branchLikelyIf (ltz (s.reg rs)) offset)

/-- BGEZALL, R199: taken iff `rs >= 0`, linking, likely. -/
def execBgezall (rs : Reg) (offset : BitVec 16) (s : State) : Result :=
  linking rs s (branchLikelyIf (gez (s.reg rs)) offset)

end Sys2Proof.Machine
end

