-- ==== Sys2Proof/Machine/ScalarArith.lean ====
section
/-! DEFINITION. The scalar computational instructions (file 40). -/

namespace Sys2Proof.Machine

/-- A computational instruction: write `rd` and go on (R121). -/
def writeReg (rd : Reg) (v : Word) (s : State) : Result := .next (s.setReg rd v).advance

/-- ADD, ADDI, SUB: on signed overflow of the exact 33-bit result raise `IntegerOverflow`, else write its
low 32 bits (R122, R124, R138). -/
def writeOrOverflow (rd : Reg) (t : BitVec 33) (s : State) : Result :=
  if overflows t then raise .integerOverflow s else writeReg rd (t.setWidth 32) s

/-- Write `HI` and `LO` with the result of a multiply or divide (R146 to R149). -/
def State.setHiLo (s : State) (hi lo : Word) : State :=
  { s with hi := hi, lo := lo, hiFromMul := true, loFromMul := true }

/-- The undefined cases of a division leave two free values in `LO` and `HI` (R148, R149, U8). -/
def divUndefined (s : State) : Result :=
  .next ((s.setHiLo (s.draw 1) (s.draw 0)).consume 2).advance

/-- MTHI's writes (R151): `HI`, and a free value in `LO` when it still holds a result of a multiply or
divide. -/
def State.moveToHi (s : State) (v : Word) : State :=
  if s.loFromMul then
    { s with hi := v, hiFromMul := false, lo := s.draw 0, loFromMul := false, draws := s.draws + 1 }
  else { s with hi := v, hiFromMul := false }

/-- MTLO's writes (R153): `LO`, and a free value in `HI` when it still holds a result of a multiply or
divide. -/
def State.moveToLo (s : State) (v : Word) : State :=
  if s.hiFromMul then
    { s with lo := v, loFromMul := false, hi := s.draw 0, hiFromMul := false, draws := s.draws + 1 }
  else { s with lo := v, loFromMul := false }

/-- ADD, R122: `rd <- rs + rt`, trapping on signed overflow. -/
def execAdd (rd rs rt : Reg) (s : State) : Result :=
  writeOrOverflow rd (sum33 (s.reg rs) (s.reg rt)) s

/-- ADDU, R123: `rd <- rs + rt` modulo 2^32. -/
def execAddu (rd rs rt : Reg) (s : State) : Result :=
  writeReg rd (s.reg rs + s.reg rt) s

/-- SUB, R124: `rd <- rs - rt`, trapping on signed overflow. -/
def execSub (rd rs rt : Reg) (s : State) : Result :=
  writeOrOverflow rd (diff33 (s.reg rs) (s.reg rt)) s

/-- SUBU, R125: `rd <- rs - rt` modulo 2^32. -/
def execSubu (rd rs rt : Reg) (s : State) : Result :=
  writeReg rd (s.reg rs - s.reg rt) s

/-- AND, R126: bitwise and. -/
def execAnd (rd rs rt : Reg) (s : State) : Result :=
  writeReg rd (s.reg rs &&& s.reg rt) s

/-- OR, R127: bitwise or. -/
def execOr (rd rs rt : Reg) (s : State) : Result :=
  writeReg rd (s.reg rs ||| s.reg rt) s

/-- XOR, R128: bitwise exclusive or. -/
def execXor (rd rs rt : Reg) (s : State) : Result :=
  writeReg rd (s.reg rs ^^^ s.reg rt) s

/-- NOR, R129: complement of the bitwise or. -/
def execNor (rd rs rt : Reg) (s : State) : Result :=
  writeReg rd (~~~(s.reg rs ||| s.reg rt)) s

/-- SLT, R130: set on signed less than. -/
def execSlt (rd rs rt : Reg) (s : State) : Result :=
  writeReg rd (boolWord (lessSigned (s.reg rs) (s.reg rt))) s

/-- SLTU, R131: set on unsigned less than. -/
def execSltu (rd rs rt : Reg) (s : State) : Result :=
  writeReg rd (boolWord (lessUnsigned (s.reg rs) (s.reg rt))) s

/-- SLL, R132: shift left by `sa`. -/
def execSll (rd rt : Reg) (sa : BitVec 5) (s : State) : Result :=
  writeReg rd (s.reg rt <<< sa.toNat) s

/-- SRL, R133: logical shift right by `sa`. -/
def execSrl (rd rt : Reg) (sa : BitVec 5) (s : State) : Result :=
  writeReg rd (s.reg rt >>> sa.toNat) s

/-- SRA, R134: arithmetic shift right by `sa`. -/
def execSra (rd rt : Reg) (sa : BitVec 5) (s : State) : Result :=
  writeReg rd ((s.reg rt).sshiftRight sa.toNat) s

/-- SLLV, R135: shift left by the low five bits of `rs`. -/
def execSllv (rd rt rs : Reg) (s : State) : Result :=
  writeReg rd (s.reg rt <<< shiftCount (s.reg rs)) s

/-- SRLV, R136: logical shift right by the low five bits of `rs`. -/
def execSrlv (rd rt rs : Reg) (s : State) : Result :=
  writeReg rd (s.reg rt >>> shiftCount (s.reg rs)) s

/-- SRAV, R137: arithmetic shift right by the low five bits of `rs`. -/
def execSrav (rd rt rs : Reg) (s : State) : Result :=
  writeReg rd ((s.reg rt).sshiftRight (shiftCount (s.reg rs))) s

/-- ADDI, R138: `rt <- rs + sext(imm)`, trapping on signed overflow. -/
def execAddi (rt rs : Reg) (imm : BitVec 16) (s : State) : Result :=
  writeOrOverflow rt (sum33 (s.reg rs) (sextImm imm)) s

/-- ADDIU, R139: `rt <- rs + sext(imm)` modulo 2^32. -/
def execAddiu (rt rs : Reg) (imm : BitVec 16) (s : State) : Result :=
  writeReg rt (s.reg rs + sextImm imm) s

/-- SLTI, R140: set on signed less than the sign-extended immediate. -/
def execSlti (rt rs : Reg) (imm : BitVec 16) (s : State) : Result :=
  writeReg rt (boolWord (lessSigned (s.reg rs) (sextImm imm))) s

/-- SLTIU, R141: set on unsigned less than the sign-extended immediate. -/
def execSltiu (rt rs : Reg) (imm : BitVec 16) (s : State) : Result :=
  writeReg rt (boolWord (lessUnsigned (s.reg rs) (sextImm imm))) s

/-- ANDI, R142: bitwise and with the zero-extended immediate. -/
def execAndi (rt rs : Reg) (imm : BitVec 16) (s : State) : Result :=
  writeReg rt (s.reg rs &&& zextImm imm) s

/-- ORI, R143: bitwise or with the zero-extended immediate. -/
def execOri (rt rs : Reg) (imm : BitVec 16) (s : State) : Result :=
  writeReg rt (s.reg rs ||| zextImm imm) s

/-- XORI, R144: bitwise exclusive or with the zero-extended immediate. -/
def execXori (rt rs : Reg) (imm : BitVec 16) (s : State) : Result :=
  writeReg rt (s.reg rs ^^^ zextImm imm) s

/-- LUI, R145: the immediate in bits 31:16, zeros below. -/
def execLui (rt : Reg) (imm : BitVec 16) (s : State) : Result :=
  writeReg rt (imm ++ 0#16) s

/-- MULT, R146: the exact signed 64-bit product in `HI`, `LO`. -/
def execMult (rs rt : Reg) (s : State) : Result :=
  let p := (s.reg rs).signExtend 64 * (s.reg rt).signExtend 64
  .next (s.setHiLo (p.extractLsb' 32 32) (p.extractLsb' 0 32)).advance

/-- MULTU, R147: the exact unsigned 64-bit product in `HI`, `LO`. -/
def execMultu (rs rt : Reg) (s : State) : Result :=
  let p := (s.reg rs).setWidth 64 * (s.reg rt).setWidth 64
  .next (s.setHiLo (p.extractLsb' 32 32) (p.extractLsb' 0 32)).advance

/-- DIV, R148: signed quotient truncated toward zero in `LO`, remainder in `HI`; free values where the
quotient is undefined. -/
def execDiv (rs rt : Reg) (s : State) : Result :=
  if s.reg rt = 0#32 ∨ (s.reg rs = 0x80000000#32 ∧ s.reg rt = 0xFFFFFFFF#32) then divUndefined s
  else .next (s.setHiLo ((s.reg rs).srem (s.reg rt)) ((s.reg rs).sdiv (s.reg rt))).advance

/-- DIVU, R149: unsigned quotient in `LO`, remainder in `HI`; free values on division by zero. -/
def execDivu (rs rt : Reg) (s : State) : Result :=
  if s.reg rt = 0#32 then divUndefined s
  else .next (s.setHiLo (s.reg rs % s.reg rt) (s.reg rs / s.reg rt)).advance

/-- MFHI, R150: `rd <- HI` (sequential semantics for the hazard of R478, U19). -/
def execMfhi (rd : Reg) (s : State) : Result :=
  writeReg rd s.hi s

/-- MTHI, R151: `HI <- rs`. -/
def execMthi (rs : Reg) (s : State) : Result :=
  .next (s.moveToHi (s.reg rs)).advance

/-- MFLO, R152: `rd <- LO` (sequential semantics for the hazard of R478, U19). -/
def execMflo (rd : Reg) (s : State) : Result :=
  writeReg rd s.lo s

/-- MTLO, R153: `LO <- rs`. -/
def execMtlo (rs : Reg) (s : State) : Result :=
  .next (s.moveToLo (s.reg rs)).advance

end Sys2Proof.Machine
end

