-- ==== Sys2Proof/Machine/ScalarMem.lean ====
section
/-! DEFINITION. The scalar loads and stores, LL, SC and SYNC (file 41, section 1). -/

namespace Sys2Proof.Machine

/-- One access of a scalar instruction. -/
def scalarAccess (kind : AccessKind) (a : Word) (size : Nat) : List Access :=
  [⟨.scalar, kind, a, size, []⟩]

/-- A scalar load of `size` bytes at `a` (R162): alignment, then the access, then `rt` gets the loaded
value widened. -/
def scalarLoad (a : Word) (size : Nat) (widen : Word → Word) (rt : Reg) (s : State) : Result :=
  if misaligned a size then raise (.addressErrorLoad a) s
  else s.accessing (scalarAccess .read a size) fun t =>
    .next (t.setReg rt (widen (s.load a size))).advance

/-- A scalar store of the low `size` bytes of `rt` at `a` (R162). -/
def scalarStore (a : Word) (size : Nat) (rt : Reg) (s : State) : Result :=
  if misaligned a size then raise (.addressErrorStore a) s
  else s.accessing (scalarAccess .write a size) fun t =>
    .next (t.store a size (s.reg rt)).advance

/-- LWL and LWR read the aligned word that holds `a` and never raise an address error (R168, R169). -/
def partialLoad (a : Word) (merge : Word → Word → Word) (rt : Reg) (s : State) : Result :=
  s.accessing (scalarAccess .read (wordBase a) 4) fun t =>
    .next (t.setReg rt (merge (s.load (wordBase a) 4) (s.reg rt))).advance

/-- SWL and SWR write only the `size` bytes that change (R173, R174). -/
def partialStore (start : Word) (size : Nat) (v : Word) (s : State) : Result :=
  s.accessing (scalarAccess .write start size) fun t => .next (t.store start size v).advance

/-- The SC at `a` ends a clean LL ... SC sequence on the same address (R176). -/
def State.linked (s : State) (a : Word) : Bool := s.llBit && s.llClean && s.llAddr == a

/-- Whether an SC at `a` finds `LLbit` set: surely after a clean sequence, else a free bit (R176, U18). -/
def State.scSucceeds (s : State) (a : Word) : Bool := s.linked a || (s.draw 0).getLsbD 0

/-- The free values an SC draws: none after a clean sequence. -/
def State.scDraws (s : State) (a : Word) : Nat := if s.linked a then 0 else 1

/-- LB, R163: load a sign-extended byte. -/
def execLb (rt : Reg) (offset : BitVec 16) (base : Reg) (s : State) : Result :=
  scalarLoad (s.effAddr base offset) 1 sextByte rt s

/-- LBU, R164: load a zero-extended byte. -/
def execLbu (rt : Reg) (offset : BitVec 16) (base : Reg) (s : State) : Result :=
  scalarLoad (s.effAddr base offset) 1 zextByte rt s

/-- LH, R165: load a sign-extended halfword. -/
def execLh (rt : Reg) (offset : BitVec 16) (base : Reg) (s : State) : Result :=
  scalarLoad (s.effAddr base offset) 2 sextHalf rt s

/-- LHU, R166: load a zero-extended halfword. -/
def execLhu (rt : Reg) (offset : BitVec 16) (base : Reg) (s : State) : Result :=
  scalarLoad (s.effAddr base offset) 2 zextHalf rt s

/-- LW, R167: load a word. -/
def execLw (rt : Reg) (offset : BitVec 16) (base : Reg) (s : State) : Result :=
  scalarLoad (s.effAddr base offset) 4 id rt s

/-- LWL, R168: load word left. -/
def execLwl (rt : Reg) (offset : BitVec 16) (base : Reg) (s : State) : Result :=
  let a := s.effAddr base offset
  partialLoad a (mergeLeft (leftKept s.params.bigEndian a)) rt s

/-- LWR, R169: load word right. -/
def execLwr (rt : Reg) (offset : BitVec 16) (base : Reg) (s : State) : Result :=
  let a := s.effAddr base offset
  partialLoad a (mergeRight (rightKept s.params.bigEndian a)) rt s

/-- SB, R170: store the low byte. -/
def execSb (rt : Reg) (offset : BitVec 16) (base : Reg) (s : State) : Result :=
  scalarStore (s.effAddr base offset) 1 rt s

/-- SH, R171: store the low halfword. -/
def execSh (rt : Reg) (offset : BitVec 16) (base : Reg) (s : State) : Result :=
  scalarStore (s.effAddr base offset) 2 rt s

/-- SW, R172: store a word. -/
def execSw (rt : Reg) (offset : BitVec 16) (base : Reg) (s : State) : Result :=
  scalarStore (s.effAddr base offset) 4 rt s

/-- SWL, R173: store word left: the high-order `4 - e` bytes of `rt`. -/
def execSwl (rt : Reg) (offset : BitVec 16) (base : Reg) (s : State) : Result :=
  let a := s.effAddr base offset
  let e := leftKept s.params.bigEndian a
  partialStore (leftStart s.params.bigEndian a) (4 - e) (s.reg rt >>> (8 * e)) s

/-- SWR, R174: store word right: the low-order `4 - f` bytes of `rt`. -/
def execSwr (rt : Reg) (offset : BitVec 16) (base : Reg) (s : State) : Result :=
  let a := s.effAddr base offset
  let f := rightKept s.params.bigEndian a
  partialStore (rightStart s.params.bigEndian a) (4 - f) (s.reg rt) s

/-- LL, R175: load a word and set `LLbit` and `LLaddr`. -/
def execLl (rt : Reg) (offset : BitVec 16) (base : Reg) (s : State) : Result :=
  let a := s.effAddr base offset
  if misaligned a 4 then raise (.addressErrorLoad a) s
  else s.accessing (scalarAccess .read a 4) fun t =>
    .next { t.setReg rt (s.load a 4) with llBit := true, llAddr := a, llClean := true }.advance

/-- SC, R176: store the word if `LLbit` is set, and tell in `rt`; a failing SC makes no access. -/
def execSc (rt : Reg) (offset : BitVec 16) (base : Reg) (s : State) : Result :=
  let a := s.effAddr base offset
  if misaligned a 4 then raise (.addressErrorStore a) s
  else if s.scSucceeds a then
    s.accessing (scalarAccess .write a 4) fun t =>
      .next (({ t.store a 4 (s.reg rt) with llBit := false }.setReg rt 1#32).consume (s.scDraws a)).advance
  else .next (({ s with llBit := false, llClean := false }.setReg rt 0#32).consume (s.scDraws a)).advance

/-- SYNC, R177: every earlier memory operation is complete; no other effect. -/
def execSync (s : State) : Result :=
  .next s.syncMemory.advance

end Sys2Proof.Machine
end

