-- ==== Sys2Proof/Machine/Coprocessors.lean ====
section
/-! DEFINITION. The coprocessor rows outside the vector unit (file 41, section 4): coprocessor 1 with the
registers of R46 and the generic meanings of R221 to R230, coprocessors 0 and 3, and the coprocessor 2
rows the vector unit does not define. -/

namespace Sys2Proof.Machine

/-! ### Coprocessor 1 -/

/-- Floating-point general register `r` (R46). -/
def State.fgr (s : State) (r : Reg) : Word := s.fpr[r.toNat]'r.isLt

/-- Write floating-point general register `r`. -/
def State.setFgr (s : State) (r : Reg) (v : Word) : State :=
  { s with fpr := s.fpr.set r.toNat v r.isLt }

/-- Floating-point control register `r`: FCR0, FCR31, or a number of no register, which reads as a free
value (R46). DESIGN CHOICE (log entry 52), marked 'safe'. -/
def State.fcr (s : State) (r : Reg) : Word :=
  if r = 0#5 then s.fcr0 else if r = 31#5 then s.fcr31 else s.draw 0

/-- The free values a read of floating-point control register `r` draws. -/
def fcrDraws (r : Reg) : Nat := if r = 0#5 ∨ r = 31#5 then 0 else 1

/-- A write of floating-point control register `r`. FCR0 is read only: PRESUMED (log entry 50). FCR31 takes
all 32 bits, none reserved or read only, and a write raises no floating-point exception: DESIGN CHOICE (log
entry 51). A number of no register changes nothing: DESIGN CHOICE (log entry 52). All marked 'unsafe'. -/
def State.setFcr (s : State) (r : Reg) (v : Word) : State :=
  if r = 31#5 then { s with fcr31 := v } else s

/-- The condition signal of coprocessor 1 (R225): bit 23 of FCR31. PRESUMED (log entry 50), marked
'unsafe'. -/
def State.fpCondition (s : State) : Bool := s.fcr31.getLsbD 23

/-- A coprocessor 1 instruction: without a floating-point unit it traps to software emulation (R236, R433,
R454). -/
def cop1Instr (s : State) (k : Result) : Result :=
  if s.params.hasFpu then k else raise (.coprocessorUnusable 1#2) s

/-- A word of major opcode 17 that is no MIPS-II instruction (R96, R432). -/
def reservedCop1 (cofun : BitVec 26) (s : State) : Result :=
  raise (.reservedInstruction (encode (.cop1 cofun))) s

/-- A move of coprocessor 1, `k` of its fields `rt` and `rd`; bits 10:0 are unused (R121, R221 to R224). -/
def cop1Move (mnemonic : String) (cofun : BitVec 26) (k : Reg → Reg → Result) : Result :=
  if cofun.extractLsb' 0 11 = 0#11 then k (cofun.extractLsb' 16 5) (cofun.extractLsb' 11 5)
  else .refused (.unusedFieldBits mnemonic)

/-- BC1F, BC1T, BC1FL and BC1TL, selected by bits 20:16; the other selectors are reserved (R96, R225). -/
def cop1Branch (cofun : BitVec 26) (s : State) : Result :=
  let offset := cofun.extractLsb' 0 16
  match cofun.extractLsb' 16 5 with
  | 0b00000#5 => branchIf (!s.fpCondition) offset s
  | 0b00001#5 => branchIf s.fpCondition offset s
  | 0b00010#5 => branchLikelyIf (!s.fpCondition) offset s
  | 0b00011#5 => branchLikelyIf s.fpCondition offset s
  | _ => reservedCop1 cofun s

/-- A word of major opcode 17 on a machine with a floating-point unit, by the selector in bits 25:21 (R96):
MFC1, CFC1, MTC1, CTC1 (R221 to R224), a branch, a floating-point operation, whose meaning is outside the
spec (R7, R226, D21), or a reserved word. -/
def cop1Word (cofun : BitVec 26) (s : State) : Result :=
  match cofun.extractLsb' 21 5 with
  | 0b00000#5 => cop1Move "mfc1" cofun fun rt rd => writeReg rt (s.fgr rd) s
  | 0b00010#5 => cop1Move "cfc1" cofun fun rt rd => writeReg rt (s.fcr rd) (s.consume (fcrDraws rd))
  | 0b00100#5 => cop1Move "mtc1" cofun fun rt rd => .next (s.setFgr rd (s.reg rt)).advance
  | 0b00110#5 => cop1Move "ctc1" cofun fun rt rd => .next (s.setFcr rd (s.reg rt)).advance
  | 0b01000#5 => cop1Branch cofun s
  | op => if op.getLsbD 4 then .refused .fpuOutsideSpec else reservedCop1 cofun s

/-- The two word accesses of a doubleword at `a`. -/
def doubleAccess (kind : AccessKind) (a : Word) : List Access :=
  scalarAccess kind a 4 ++ scalarAccess kind (a + 4#32) 4

/-- The address of the low-order word of the doubleword at `a` (R64). -/
def lowWordAddr (bigEndian : Bool) (a : Word) : Word := if bigEndian then a + 4#32 else a

/-- The address of the high-order word of the doubleword at `a` (R64). -/
def highWordAddr (bigEndian : Bool) (a : Word) : Word := if bigEndian then a else a + 4#32

/-- A doubleword stands in registers `rt` (low-order word) and `rt + 1`, `rt` even, and needs an address
that is a multiple of 8: `k` runs when both hold. PRESUMED (log entry 50), marked 'unsafe'. -/
def onDoubleword (rt : Reg) (a : Word) (e : Exception) (s : State) (k : Result) : Result :=
  if rt.getLsbD 0 then .refused .fpuOddPair
  else if misaligned a 8 then raise e s
  else k

/-! ### Coprocessors 2 and 3 -/

/-- Coprocessor 3 is never usable (R237, R433). -/
def cop3Instr (s : State) : Result := raise (.coprocessorUnusable 3#2) s

/-- A coprocessor 2 instruction the manual does not define: coprocessor unusable, else reserved
(R235, R432, D25). -/
def undefinedCop2 (i : Instr) (s : State) : Result :=
  if !s.cu2 then raise (.coprocessorUnusable 2#2) s else raise (.reservedInstruction (encode i)) s

/-! ### The instructions -/

/-- COP0, R234: coprocessor 0 is implementation dependent, and no source describes it. -/
def execCop0 (_cofun : BitVec 26) (_s : State) : Result :=
  .refused .coprocessor0Undefined

/-- COP1, R236: every word of major opcode 17. -/
def execCop1 (cofun : BitVec 26) (s : State) : Result :=
  cop1Instr s (cop1Word cofun s)

/-- COP3, R237: every word of major opcode 19. -/
def execCop3 (_cofun : BitVec 26) (s : State) : Result :=
  cop3Instr s

/-- LWC1, R227, R236: load a word into coprocessor 1 data register `rt`. -/
def execLwc1 (rt : Reg) (offset : BitVec 16) (base : Reg) (s : State) : Result :=
  let a := s.effAddr base offset
  cop1Instr s <|
    if misaligned a 4 then raise (.addressErrorLoad a) s
    else s.accessing (scalarAccess .read a 4) fun t => .next (t.setFgr rt (s.load a 4)).advance

/-- SWC1, R228, R236: store coprocessor 1 data register `rt`. -/
def execSwc1 (rt : Reg) (offset : BitVec 16) (base : Reg) (s : State) : Result :=
  let a := s.effAddr base offset
  cop1Instr s <|
    if misaligned a 4 then raise (.addressErrorStore a) s
    else s.accessing (scalarAccess .write a 4) fun t => .next (t.store a 4 (s.fgr rt)).advance

/-- LDC1, R229, R236: load a doubleword into the pair of registers at `rt`. -/
def execLdc1 (rt : Reg) (offset : BitVec 16) (base : Reg) (s : State) : Result :=
  let a := s.effAddr base offset
  cop1Instr s <| onDoubleword rt a (.addressErrorLoad a) s <|
    s.accessing (doubleAccess .read a) fun t =>
      .next ((t.setFgr rt (s.load (lowWordAddr s.params.bigEndian a) 4)).setFgr (rt + 1#5)
        (s.load (highWordAddr s.params.bigEndian a) 4)).advance

/-- SDC1, R230, R236: store the doubleword in the pair of registers at `rt`. -/
def execSdc1 (rt : Reg) (offset : BitVec 16) (base : Reg) (s : State) : Result :=
  let a := s.effAddr base offset
  cop1Instr s <| onDoubleword rt a (.addressErrorStore a) s <|
    s.accessing (doubleAccess .write a) fun t =>
      .next ((t.store (lowWordAddr s.params.bigEndian a) 4 (s.fgr rt)).store
        (highWordAddr s.params.bigEndian a) 4 (s.fgr (rt + 1#5))).advance

/-- LWC2, R235: not defined by the vector unit. -/
def execLwc2 (rt : Reg) (offset : BitVec 16) (base : Reg) (s : State) : Result :=
  undefinedCop2 (.lwc2 rt offset base) s

/-- SWC2, R235: not defined by the vector unit. -/
def execSwc2 (rt : Reg) (offset : BitVec 16) (base : Reg) (s : State) : Result :=
  undefinedCop2 (.swc2 rt offset base) s

/-- LDC2, R235: not defined by the vector unit. -/
def execLdc2 (rt : Reg) (offset : BitVec 16) (base : Reg) (s : State) : Result :=
  undefinedCop2 (.ldc2 rt offset base) s

/-- SDC2, R235: not defined by the vector unit. -/
def execSdc2 (rt : Reg) (offset : BitVec 16) (base : Reg) (s : State) : Result :=
  undefinedCop2 (.sdc2 rt offset base) s

/-- MFC2, R235: not defined by the vector unit. -/
def execMfc2 (low : BitVec 21) (s : State) : Result :=
  undefinedCop2 (.mfc2 low) s

/-- MTC2, R235: not defined by the vector unit. -/
def execMtc2 (low : BitVec 21) (s : State) : Result :=
  undefinedCop2 (.mtc2 low) s

/-- BC2F, R235: not defined by the vector unit. -/
def execBc2f (offset : BitVec 16) (s : State) : Result :=
  undefinedCop2 (.bc2f offset) s

/-- BC2T, R235: not defined by the vector unit. -/
def execBc2t (offset : BitVec 16) (s : State) : Result :=
  undefinedCop2 (.bc2t offset) s

/-- BC2FL, R235: not defined by the vector unit. -/
def execBc2fl (offset : BitVec 16) (s : State) : Result :=
  undefinedCop2 (.bc2fl offset) s

/-- BC2TL, R235: not defined by the vector unit. -/
def execBc2tl (offset : BitVec 16) (s : State) : Result :=
  undefinedCop2 (.bc2tl offset) s

/-- LWC3, R237: a coprocessor 3 memory instruction. -/
def execLwc3 (_rt : Reg) (_offset : BitVec 16) (_base : Reg) (s : State) : Result :=
  cop3Instr s

/-- SWC3, R237: a coprocessor 3 memory instruction. -/
def execSwc3 (_rt : Reg) (_offset : BitVec 16) (_base : Reg) (s : State) : Result :=
  cop3Instr s

end Sys2Proof.Machine
end

