-- ==== Sys2Proof/Machine/Traps.lean ====
section
/-! DEFINITION. The conditional traps, SYSCALL and BREAK (file 41, section 3). -/

namespace Sys2Proof.Machine

/-- A conditional trap: raise `Trap` when the comparison holds, else do nothing (R200). -/
def trapIf (c : Bool) (s : State) : Result := if c then raise .trap s else .next s.advance

/-- TGE, R201: trap if `rs >= rt`, signed; the code field is ignored. -/
def execTge (rs rt : Reg) (_code : BitVec 10) (s : State) : Result :=
  trapIf (!lessSigned (s.reg rs) (s.reg rt)) s

/-- TGEU, R202: trap if `rs >= rt`, unsigned; the code field is ignored. -/
def execTgeu (rs rt : Reg) (_code : BitVec 10) (s : State) : Result :=
  trapIf (!lessUnsigned (s.reg rs) (s.reg rt)) s

/-- TLT, R203: trap if `rs < rt`, signed; the code field is ignored. -/
def execTlt (rs rt : Reg) (_code : BitVec 10) (s : State) : Result :=
  trapIf (lessSigned (s.reg rs) (s.reg rt)) s

/-- TLTU, R204: trap if `rs < rt`, unsigned; the code field is ignored. -/
def execTltu (rs rt : Reg) (_code : BitVec 10) (s : State) : Result :=
  trapIf (lessUnsigned (s.reg rs) (s.reg rt)) s

/-- TEQ, R205: trap if `rs = rt`; the code field is ignored. -/
def execTeq (rs rt : Reg) (_code : BitVec 10) (s : State) : Result :=
  trapIf ((s.reg rs) == (s.reg rt)) s

/-- TNE, R206: trap if `rs != rt`; the code field is ignored. -/
def execTne (rs rt : Reg) (_code : BitVec 10) (s : State) : Result :=
  trapIf ((s.reg rs) != (s.reg rt)) s

/-- TGEI, R207: trap if `rs >= sext(imm)`, signed. -/
def execTgei (rs : Reg) (imm : BitVec 16) (s : State) : Result :=
  trapIf (!lessSigned (s.reg rs) (sextImm imm)) s

/-- TGEIU, R208: trap if `rs >= sext(imm)`, unsigned. -/
def execTgeiu (rs : Reg) (imm : BitVec 16) (s : State) : Result :=
  trapIf (!lessUnsigned (s.reg rs) (sextImm imm)) s

/-- TLTI, R209: trap if `rs < sext(imm)`, signed. -/
def execTlti (rs : Reg) (imm : BitVec 16) (s : State) : Result :=
  trapIf (lessSigned (s.reg rs) (sextImm imm)) s

/-- TLTIU, R210: trap if `rs < sext(imm)`, unsigned. -/
def execTltiu (rs : Reg) (imm : BitVec 16) (s : State) : Result :=
  trapIf (lessUnsigned (s.reg rs) (sextImm imm)) s

/-- TEQI, R211: trap if `rs = sext(imm)`. -/
def execTeqi (rs : Reg) (imm : BitVec 16) (s : State) : Result :=
  trapIf ((s.reg rs) == (sextImm imm)) s

/-- TNEI, R212: trap if `rs != sext(imm)`. -/
def execTnei (rs : Reg) (imm : BitVec 16) (s : State) : Result :=
  trapIf ((s.reg rs) != (sextImm imm)) s

/-- SYSCALL, R213: the system call exception; the code field is for software. -/
def execSyscall (_code : BitVec 20) (s : State) : Result :=
  raise .syscall s

/-- BREAK, R214: the breakpoint exception; the code field is for software. -/
def execBrk (_code : BitVec 20) (s : State) : Result :=
  raise .breakpoint s

end Sys2Proof.Machine
end

