-- ==== Sys2Proof/Machine/VuCompare.lean ====
section
/-! DEFINITION. The vector set, flag and conditional move instructions (file 46). -/

namespace Sys2Proof.Machine

/-- The set instructions (R340, R341): `v[vw][i] <- 1` or 0. -/
def vecSet (i : Instr) (vw : VReg) (ab : Pairs) (p : Word → Word → Bool) (s : State) : Result :=
  vecIssue i s fun n =>
    .next (s.setElems vw n (fun e => boolWord (p (ab.val e).1 (ab.val e).2)) ab.waits).advance

/-- The flag instructions (R349): bits `0 .. n-1` of vcond. -/
def vecFlag (i : Instr) (ab : Pairs) (p : Word → Word → Bool) (s : State) : Result :=
  vecIssue i s fun n => .next (s.putVcond n fun e => p (ab.val e).1 (ab.val e).2).advance

/-- The conditional moves (R357): the second operand goes to the elements whose first operand meets the
condition, and is not read for the others. -/
def vecCmov (i : Instr) (c : ZeroCond) (vw : VReg) (ab : Pairs) (s : State) : Result :=
  vecIssue i s fun n =>
    let moved : Elem → Bool := fun e => c.holds (ab.val e).1.toInt
    .next (s.setElemsWhere vw n moved (fun e => (ab.val e).2)
      (ab.waitsOn fun e => (true, moved e))).advance

/-- SLT.VV, R341: set on signed less than, vector-vector. -/
def execSltVv (vw vd vt : VReg) (s : State) : Result :=
  vecSet (.sltVv vw vd vt) vw (s.vv vd vt) lessSigned s

/-- SLT.VS, R342: set on signed less than, vector-scalar. -/
def execSltVs (vw vd : VReg) (rt : Reg) (s : State) : Result :=
  vecSet (.sltVs vw vd rt) vw (s.vs vd rt) lessSigned s

/-- SLT.SV, R343: set on signed less than, scalar-vector. -/
def execSltSv (vw : VReg) (rt : Reg) (vd : VReg) (s : State) : Result :=
  vecSet (.sltSv vw rt vd) vw (s.sv rt vd) lessSigned s

/-- SLTU.VV, R344: set on unsigned less than, vector-vector. -/
def execSltuVv (vw vd vt : VReg) (s : State) : Result :=
  vecSet (.sltuVv vw vd vt) vw (s.vv vd vt) lessUnsigned s

/-- SLTU.VS, R345: set on unsigned less than, vector-scalar. -/
def execSltuVs (vw vd : VReg) (rt : Reg) (s : State) : Result :=
  vecSet (.sltuVs vw vd rt) vw (s.vs vd rt) lessUnsigned s

/-- SLTU.SV, R346: set on unsigned less than, scalar-vector. -/
def execSltuSv (vw : VReg) (rt : Reg) (vd : VReg) (s : State) : Result :=
  vecSet (.sltuSv vw rt vd) vw (s.sv rt vd) lessUnsigned s

/-- SEQ.VV, R347: set on equal, vector-vector. -/
def execSeqVv (vw vd vt : VReg) (s : State) : Result :=
  vecSet (.seqVv vw vd vt) vw (s.vv vd vt) (· == ·) s

/-- SEQ.VS, R348: set on equal, vector-scalar. -/
def execSeqVs (vw vd : VReg) (rt : Reg) (s : State) : Result :=
  vecSet (.seqVs vw vd rt) vw (s.vs vd rt) (· == ·) s

/-- FLT.VV, R349: flag on signed less than, vector-vector. -/
def execFltVv (vd vt : VReg) (s : State) : Result :=
  vecFlag (.fltVv vd vt) (s.vv vd vt) lessSigned s

/-- FLT.VS, R350: flag on signed less than, vector-scalar. -/
def execFltVs (vd : VReg) (rt : Reg) (s : State) : Result :=
  vecFlag (.fltVs vd rt) (s.vs vd rt) lessSigned s

/-- FLT.SV, R351: flag on signed less than, scalar-vector. -/
def execFltSv (rt : Reg) (vd : VReg) (s : State) : Result :=
  vecFlag (.fltSv rt vd) (s.sv rt vd) lessSigned s

/-- FLTU.VV, R352: flag on unsigned less than, vector-vector. -/
def execFltuVv (vd vt : VReg) (s : State) : Result :=
  vecFlag (.fltuVv vd vt) (s.vv vd vt) lessUnsigned s

/-- FLTU.VS, R353: flag on unsigned less than, vector-scalar. -/
def execFltuVs (vd : VReg) (rt : Reg) (s : State) : Result :=
  vecFlag (.fltuVs vd rt) (s.vs vd rt) lessUnsigned s

/-- FLTU.SV, R354: flag on unsigned less than, scalar-vector. -/
def execFltuSv (rt : Reg) (vd : VReg) (s : State) : Result :=
  vecFlag (.fltuSv rt vd) (s.sv rt vd) lessUnsigned s

/-- FEQ.VV, R355: flag on equal, vector-vector. -/
def execFeqVv (vd vt : VReg) (s : State) : Result :=
  vecFlag (.feqVv vd vt) (s.vv vd vt) (· == ·) s

/-- FEQ.VS, R356: flag on equal, vector-scalar. -/
def execFeqVs (vd : VReg) (rt : Reg) (s : State) : Result :=
  vecFlag (.feqVs vd rt) (s.vs vd rt) (· == ·) s

/-- CMVNEZ.VV, R358: conditional move, vector-vector. -/
def execCmvnezVv (vw vd vt : VReg) (s : State) : Result :=
  vecCmov (.cmvnezVv vw vd vt) .nez vw (s.vv vd vt) s

/-- CMVGEZ.VV, R359: conditional move, vector-vector. -/
def execCmvgezVv (vw vd vt : VReg) (s : State) : Result :=
  vecCmov (.cmvgezVv vw vd vt) .gez vw (s.vv vd vt) s

/-- CMVLEZ.VV, R360: conditional move, vector-vector. -/
def execCmvlezVv (vw vd vt : VReg) (s : State) : Result :=
  vecCmov (.cmvlezVv vw vd vt) .lez vw (s.vv vd vt) s

/-- CMVEQZ.VV, R361: conditional move, vector-vector. -/
def execCmveqzVv (vw vd vt : VReg) (s : State) : Result :=
  vecCmov (.cmveqzVv vw vd vt) .eqz vw (s.vv vd vt) s

/-- CMVLTZ.VV, R362: conditional move, vector-vector. -/
def execCmvltzVv (vw vd vt : VReg) (s : State) : Result :=
  vecCmov (.cmvltzVv vw vd vt) .ltz vw (s.vv vd vt) s

/-- CMVGTZ.VV, R363: conditional move, vector-vector. -/
def execCmvgtzVv (vw vd vt : VReg) (s : State) : Result :=
  vecCmov (.cmvgtzVv vw vd vt) .gtz vw (s.vv vd vt) s

/-- CMVNEZ.VS, R364: conditional move, vector-scalar. -/
def execCmvnezVs (vw vd : VReg) (rt : Reg) (s : State) : Result :=
  vecCmov (.cmvnezVs vw vd rt) .nez vw (s.vs vd rt) s

/-- CMVGEZ.VS, R365: conditional move, vector-scalar. -/
def execCmvgezVs (vw vd : VReg) (rt : Reg) (s : State) : Result :=
  vecCmov (.cmvgezVs vw vd rt) .gez vw (s.vs vd rt) s

/-- CMVLEZ.VS, R366: conditional move, vector-scalar. -/
def execCmvlezVs (vw vd : VReg) (rt : Reg) (s : State) : Result :=
  vecCmov (.cmvlezVs vw vd rt) .lez vw (s.vs vd rt) s

/-- CMVEQZ.VS, R367: conditional move, vector-scalar. -/
def execCmveqzVs (vw vd : VReg) (rt : Reg) (s : State) : Result :=
  vecCmov (.cmveqzVs vw vd rt) .eqz vw (s.vs vd rt) s

/-- CMVLTZ.VS, R368: conditional move, vector-scalar. -/
def execCmvltzVs (vw vd : VReg) (rt : Reg) (s : State) : Result :=
  vecCmov (.cmvltzVs vw vd rt) .ltz vw (s.vs vd rt) s

/-- CMVGTZ.VS, R369: conditional move, vector-scalar. -/
def execCmvgtzVs (vw vd : VReg) (rt : Reg) (s : State) : Result :=
  vecCmov (.cmvgtzVs vw vd rt) .gtz vw (s.vs vd rt) s

end Sys2Proof.Machine
end

