-- ==== Sys2Proof/Machine/VuControl.lean ====
section
/-! DEFINITION. The vector unit control register moves (file 42). -/

namespace Sys2Proof.Machine

/-- The value CFVU reads from control register `cs` (R31, R241), for the ones with a fixed value; vcount
is a free value of its own. -/
def State.readVcr (s : State) (cs : BitVec 5) : Option Word :=
  match cs with
  | 0#5 => some (0#16 ++ Config.vrevImp ++ Config.vrevRev)
  | 1#5 => some (s.draw 0)
  | 2#5 => some (s.vlr.setWidth 32)
  | 4#5 => some s.vcond
  | 8#5 => some s.vovf
  | 12#5 => some s.vsat
  | _ => none

/-- Reading vcount draws a free value, which the counter then holds (R32, D27); no other read changes
a control register. -/
def State.afterVcrRead (s : State) (cs : BitVec 5) : State :=
  if cs = 1#5 then { s with vcount := s.draw 0, draws := s.draws + 1 } else s

/-- What CTVU stores (R242, R243): vrev and vcount are read only, vlr keeps 8 bits. -/
def State.writeVcr (s : State) (cs : BitVec 5) (v : Word) : Option State :=
  match cs with
  | 0#5 => some s
  | 1#5 => some s
  | 2#5 => some { s with vlr := v.setWidth 8 }
  | 4#5 => some { s with vcond := v }
  | 8#5 => some { s with vovf := v }
  | 12#5 => some { s with vsat := v }
  | _ => none

/-- CFVU, R241: `x[rt] <- vcr[cs]`. -/
def execCfvu (rt : Reg) (cs : BitVec 5) (s : State) : Result :=
  vuIssue (.cfvu rt cs) s <|
    match s.readVcr cs with
    | none => .refused .invalidControlRegister
    | some v => .next ((s.afterVcrRead cs).setReg rt v).advance

/-- CTVU, R242: `vcr[cs] <- x[rt]`. -/
def execCtvu (rt : Reg) (cs : BitVec 5) (s : State) : Result :=
  vuIssue (.ctvu rt cs) s <|
    match s.writeVcr cs (s.reg rt) with
    | none => .refused .invalidControlRegister
    | some t => .next t.advance

end Sys2Proof.Machine
end

