-- ==== Sys2Proof/Machine/FixedPoint.lean ====
section
/-! DEFINITION. The fixed-point stages of file 47: the configuration word, the left shifter, the right
shifter with its sticky bit, the multiplier's round bit and the clipper. -/

namespace Sys2Proof.Machine

/-- The three fixed-point operations. -/
inductive FxKind where
  | add
  | sub
  | mul
  deriving DecidableEq, Repr

/-- `sham = c[4:0]` (R381). -/
def fxSham (c : Word) : Nat := (c.extractLsb' 0 5).toNat
/-- `clipam = c[8:7]`. -/
def fxClipam (c : Word) : BitVec 2 := c.extractLsb' 7 2
/-- `shlnr = c[9]`. -/
def fxShlnr (c : Word) : Bool := c.getLsbD 9
/-- `shrnr = c[10]`. -/
def fxShrnr (c : Word) : Bool := c.getLsbD 10
/-- `shrst = c[11]`. -/
def fxShrst (c : Word) : Bool := c.getLsbD 11

/-- The bits 31:12 and 6:5 of a configuration word, unused by the architecture (R381). -/
def fxUnusedMask : Word := 0xFFFFF060#32

/-- `FxShl` (R383): the left shifter, with a 1 in the 1/2 LSB position unless `shlnr`. -/
def fxShl (a : Word) (sham : Nat) (shlnr : Bool) : Word :=
  let t := a <<< sham
  if !shlnr && decide (0 < sham) then t ||| (1#32 <<< (sham - 1)) else t

/-- The bits of `q` that a right shift by `sham` discards are not all zero (R384). -/
def fxSticky (q : BitVec 33) (sham : Nat) : Bool := decide (q.toNat % 2 ^ sham ≠ 0)

/-- Replace bit 0. -/
def setBit0 (q : BitVec 33) (b : Bool) : BitVec 33 :=
  if b then q ||| 1#33 else q &&& ~~~1#33

/-- `FxShr` (R384): the arithmetic right shifter with the sticky-bit adjustment. -/
def fxShr (q : BitVec 33) (sham : Nat) (shrnr shrst : Bool) : BitVec 33 :=
  let r := q.sshiftRight sham
  let st := fxSticky q sham
  if !shrnr && !shrst && decide (sham ≠ 0) && !st then setBit0 r false
  else if !shrnr && shrst then setBit0 r (r.getLsbD 0 || st)
  else r

/-- The width the clipper keeps for a `clipam` (R385); 11 is 16 bits on T0 (R408). -/
def clipWidth (clipam : BitVec 2) : Nat :=
  if clipam = 0b00#2 then 32 else if clipam = 0b01#2 then 8 else 16

/-- `FxClip` (R385): the clipped value, and whether it differs from the input. -/
def fxClip (q : BitVec 33) (clipam : BitVec 2) : Word × Bool :=
  let hi : Int := 2 ^ (clipWidth clipam - 1) - 1
  let lo : Int := -(2 ^ (clipWidth clipam - 1))
  let r : Int := min (max q.toInt lo) hi
  (BitVec.ofInt 32 r, decide (r ≠ q.toInt))

/-- The exact product of the low halves, sign-extended (R392). -/
def fxProduct (a b : Word) : BitVec 33 :=
  (a.setWidth 16).signExtend 33 * (b.setWidth 16).signExtend 33

/-- The round bit of the multiplier (R392). -/
def fxRound (sham : Nat) (shlnr : Bool) : BitVec 33 :=
  if !shlnr && decide (0 < sham) then 1#33 <<< (sham - 1) else 0#33

/-- The 33-bit value `S` of each operation (R386, R389, R392). -/
def fxSum (kind : FxKind) (c : Word) (a b : Word) : BitVec 33 :=
  match kind with
  | .add => sum33 (fxShl a (fxSham c) (fxShlnr c)) b
  | .sub => diff33 (fxShl a (fxSham c) (fxShlnr c)) b
  | .mul => fxProduct a b + fxRound (fxSham c) (fxShlnr c)

/-- One element of a fixed-point instruction (R382): the result and whether it saturated. -/
def fxElement (kind : FxKind) (c : Word) (ab : Word × Word) : Word × Bool :=
  fxClip (fxShr (fxSum kind c ab.1 ab.2) (fxSham c) (fxShrnr c) (fxShrst c)) (fxClipam c)

end Sys2Proof.Machine
end

