-- ==== Sys2Proof/Machine/T0Pipe.lean ====
section
/-! DEFINITION. The fixed-point pipelines of T0 (file 48, appendix A), for a machine that is given the
lost layout of the configuration word as a parameter (R401, D23). -/

namespace Sys2Proof.Machine

/-- The fields of a T0 configuration word (R401). -/
structure T0Fields where
  lufunc : BitVec 4
  shlza : Bool
  shlv : Bool
  shlam : Nat
  shlnr : Bool
  au : Bool
  bu : Bool
  shrv : Bool
  sepsham : Bool
  shram : Nat
  shrl : Bool
  shrnr : Bool
  shrst : Bool
  lures : Bool
  noclip : Bool
  clipam : BitVec 2
  wcond : BitVec 3
  deriving DecidableEq, Repr

/-- Bit positions read as a field, lowest bit first. -/
def gather {n : Nat} (c : Word) (positions : Vector (Fin 32) n) : BitVec n :=
  BitVec.ofFnLE fun i : Fin n => c.getLsbD positions[i].val

/-- The positions of the twelve T0-only fields. -/
def layoutPositions (l : T0Layout) : List (Fin 32) :=
  l.lufunc.toList ++ l.shram.toList ++ l.wcond.toList ++
    [l.shlza, l.shlv, l.au, l.bu, l.shrv, l.sepsham, l.shrl, l.lures, l.noclip]

/-- A layout that R401 allows: 21 different bits, all among the architecturally unused ones. -/
def layoutValid (l : T0Layout) : Bool :=
  (layoutPositions l).all (fun p => fxUnusedMask.getLsbD p.val) && decide (layoutPositions l).Nodup

/-- The bits of a configuration word that neither figure assigns, "all unused bits should be set to 0"
(R401). -/
def t0Leftover (l : T0Layout) (c : Word) : Bool :=
  (List.finRange 32).any fun i =>
    c.getLsbD i.val && fxUnusedMask.getLsbD i.val && !(layoutPositions l).contains i

/-- The fields of a configuration word under a layout (R401). -/
def t0Fields (l : T0Layout) (c : Word) : T0Fields where
  lufunc := gather c l.lufunc
  shlza := c.getLsbD l.shlza.val
  shlv := c.getLsbD l.shlv.val
  shlam := fxSham c
  shlnr := fxShlnr c
  au := c.getLsbD l.au.val
  bu := c.getLsbD l.bu.val
  shrv := c.getLsbD l.shrv.val
  sepsham := c.getLsbD l.sepsham.val
  shram := (gather c l.shram).toNat
  shrl := c.getLsbD l.shrl.val
  shrnr := fxShrnr c
  shrst := fxShrst c
  lures := c.getLsbD l.lures.val
  noclip := c.getLsbD l.noclip.val
  clipam := fxClipam c
  wcond := gather c l.wcond

/-- The logic unit, Table 10, with row 1100 as `A ^ B` (R403, C11). -/
def logicUnit (f : BitVec 4) (a b : Word) : Word :=
  match f with
  | 0b0000#4 => b
  | 0b0001#4 => b ||| ~~~a
  | 0b0010#4 => a &&& b
  | 0b0011#4 => ~~~(a ^^^ b)
  | 0b0100#4 => a ||| b
  | 0b0101#4 => ~~~0#32
  | 0b0110#4 => a
  | 0b0111#4 => a ||| ~~~b
  | 0b1000#4 => b &&& ~~~a
  | 0b1001#4 => ~~~a
  | 0b1010#4 => 0#32
  | 0b1011#4 => ~~~(a ||| b)
  | 0b1100#4 => a ^^^ b
  | 0b1101#4 => ~~~(a &&& b)
  | 0b1110#4 => a &&& ~~~b
  | _ => ~~~b

/-- Sign extension, or zero extension when `unsignedSide` (R405). -/
def extend33 (unsignedSide : Bool) (w : Word) : BitVec 33 :=
  if unsignedSide then w.setWidth 33 else w.signExtend 33

/-- The 17-bit multiplier input from the low half (R413), in 33 bits. -/
def mulInput (unsignedSide : Bool) (w : Word) : BitVec 33 :=
  if unsignedSide then (w.setWidth 16).setWidth 33 else (w.setWidth 16).signExtend 33

/-- The third stage: the left shifter output SHLOUT (R404). -/
def t0Shl (f : T0Fields) (a luout : Word) : Word :=
  fxShl (if f.shlza then 0#32 else a) (if f.shlv then shiftCount luout else f.shlam) f.shlnr

/-- The adder inputs and output of the add/subtract pipeline (R405). -/
def t0AddB (f : T0Fields) (luout : Word) : BitVec 33 := extend33 f.bu luout

/-- ADDOUT: of the add/subtract pipeline (R405) or of the multiply pipeline (R414). -/
def t0AddOut (kind : FxKind) (f : T0Fields) (a b : Word) : BitVec 33 :=
  let luout := logicUnit f.lufunc a b
  let adda := extend33 f.au (t0Shl f a luout)
  match kind with
  | .add => if f.shlv || f.shrv then adda else adda + t0AddB f luout
  | .sub => if f.shlv || f.shrv then adda else adda - t0AddB f luout
  | .mul => mulInput f.au a * mulInput f.bu b + fxRound f.shlam f.shlnr

/-- The right shift amount (R406, R415). -/
def t0ShrAmount (f : T0Fields) (addb : BitVec 33) : Nat :=
  if f.shrv then (addb.extractLsb' 0 5).toNat else if f.sepsham then f.shram else f.shlam

/-- The sixth stage: SHROUT (R406). -/
def t0Shr (f : T0Fields) (addout addb : BitVec 33) : BitVec 33 :=
  let amt := t0ShrAmount f addb
  let r := if f.shrl then addout >>> amt else addout.sshiftRight amt
  let st := fxSticky addout amt
  if !f.shrnr && f.shrst then setBit0 r (r.getLsbD 0 || st)
  else if !f.shrnr && !(!f.shrv && decide (amt = 0)) then setBit0 r (r.getLsbD 0 && st)
  else r

/-- The clipper with `noclip` set, Table 12 (R409): CLIPOUT and FLAG. -/
def t0NoClip (clipam : BitVec 2) (clipin addout : BitVec 33) : Word × Bool :=
  match clipam with
  | 0b00#2 => (clipin.setWidth 32, false)
  | 0b01#2 => (clipin.setWidth 32, overflows clipin)
  | 0b10#2 => (boolWord (clipin.getLsbD 32), clipin.getLsbD 32)
  | _ => (boolWord (decide (addout = 0#33)), decide (addout = 0#33))

/-- The conditional write, Table 13 (R412). -/
def t0WriteEnable (wcond : BitVec 3) (addout : BitVec 33) : Bool :=
  match wcond with
  | 0b000#3 => true
  | 0b001#3 => ZeroCond.holds .nez addout.toInt
  | 0b010#3 => ZeroCond.holds .gez addout.toInt
  | 0b011#3 => ZeroCond.holds .lez addout.toInt
  | 0b100#3 => false
  | 0b101#3 => ZeroCond.holds .eqz addout.toInt
  | 0b110#3 => ZeroCond.holds .ltz addout.toInt
  | _ => ZeroCond.holds .gtz addout.toInt

/-- LUOUT is computed from A, from B (R403). -/
def logicReads (f : BitVec 4) : Bool × Bool :=
  match f with
  | 0b0000#4 => (false, true)
  | 0b0101#4 => (false, false)
  | 0b0110#4 => (true, false)
  | 0b1001#4 => (true, false)
  | 0b1010#4 => (false, false)
  | 0b1111#4 => (false, true)
  | _ => (true, true)

/-- ADDOUT is computed from A, from B: through the left shifter, and through LUOUT as its shift amount or
as the second adder input (R404, R405), or through the multiplier (R414). -/
def addOutReads (kind : FxKind) (f : T0Fields) : Bool × Bool :=
  let lu := f.shlv || !f.shrv
  match kind with
  | .add | .sub => (!f.shlza || (lu && (logicReads f.lufunc).1), lu && (logicReads f.lufunc).2)
  | .mul => (true, true)

/-- The operands that decide whether an element is written: those of ADDOUT, none when the write is
unconditional or suppressed throughout (R412). DEDUCED (log entry 16), marked 'unsafe'. -/
def t0DecidedBy (kind : FxKind) (f : T0Fields) : Bool × Bool :=
  if f.wcond = 0b000#3 ∨ f.wcond = 0b100#3 then (false, false) else addOutReads kind f

/-- What the T0 pipeline gives for one element. -/
structure T0Out where
  clipout : Word
  flag : Bool
  write : Bool
  deriving DecidableEq, Repr

/-- The T0 pipelines (R402 to R416). -/
def t0Element (kind : FxKind) (f : T0Fields) (ab : Word × Word) : T0Out :=
  let luout := logicUnit f.lufunc ab.1 ab.2
  let addb := t0AddB f luout
  let addout := t0AddOut kind f ab.1 ab.2
  let shrout := t0Shr f addout addb
  let clipin := if f.lures then addb else shrout
  let cf := if f.noclip then t0NoClip f.clipam clipin addout else fxClip clipin f.clipam
  ⟨cf.1, cf.2, t0WriteEnable f.wcond addout⟩

/-- The fields that must be zero in the multiply pipeline (R417). -/
def t0MulForbidden (f : T0Fields) : Bool := f.shlza || f.shlv || f.shrv || f.lures

end Sys2Proof.Machine
end

