-- ==== Sys2Proof/Machine/VuFixedPoint.lean ====
section
/-! DEFINITION. The vector fixed-point instructions (files 47 and 48). -/

namespace Sys2Proof.Machine

/-- The architectural fixed-point instruction (R382, R395): a configuration word with a nonzero unused
bit or `clipam = 11` is refused. -/
def fxArch (kind : FxKind) (vw : VReg) (ab : Pairs) (c : Word) (n : Nat) (s : State) : Result :=
  if c &&& fxUnusedMask ≠ 0#32 then .refused .configUnusedBits
  else if fxClipam c = 0b11#2 then .refused .clipamReserved
  else .next ((s.setElems vw n (fun e => (fxElement kind c (ab.val e)).1) ab.waits).orVsat n
    fun e => (fxElement kind c (ab.val e)).2).advance

/-- The vsat bits T0 sets (R411): FLAG where the register write is enabled; where the write is suppressed
the text does not say, so FLAG is ORed in or not as a free value decides (U23). -/
def t0FlagBit (s : State) (o : T0Out) (e : Elem) : Bool :=
  o.flag && (o.write || (s.draw e.val).getLsbD 0)

/-- The fixed-point instruction of T0 with a known layout (R402 to R417). -/
def fxT0 (l : T0Layout) (kind : FxKind) (vw : VReg) (ab : Pairs) (c : Word) (n : Nat) (s : State) :
    Result :=
  if t0Leftover l c then .refused .configUnusedBits
  else if kind = .mul ∧ t0MulForbidden (t0Fields l c) then .refused .t0FieldMustBeZero
  else
    let out : Elem → T0Out := fun e => t0Element kind (t0Fields l c) (ab.val e)
    let used : Elem → Bool × Bool := fun e =>
      if (out e).write then (true, true) else t0DecidedBy kind (t0Fields l c)
    .next (((s.setElemsWhere vw n (fun e => (out e).write) (fun e => (out e).clipout)
      (ab.waitsOn used)).orVsat n fun e => t0FlagBit s (out e) e).consume n).advance

/-- A fixed-point instruction: the configuration word is `x[rd]`, read at issue (R380, R382). -/
def fixedPoint (i : Instr) (kind : FxKind) (vw : VReg) (ab : Pairs) (rd : Reg) (s : State) : Result :=
  vecIssue i s fun n =>
    match s.params.t0 with
    | none => fxArch kind vw ab (s.reg rd) n s
    | some l => fxT0 l kind vw ab (s.reg rd) n s

/-- FXADD.VV, R386: fixed-point add, vector-vector. -/
def execFxaddVv (vw vd vt : VReg) (rd : Reg) (s : State) : Result :=
  fixedPoint (.fxaddVv vw vd vt rd) .add vw (s.vv vd vt) rd s

/-- FXADD.VS, R387: fixed-point add, vector-scalar. -/
def execFxaddVs (vw vd : VReg) (rt rd : Reg) (s : State) : Result :=
  fixedPoint (.fxaddVs vw vd rt rd) .add vw (s.vs vd rt) rd s

/-- FXADD.SV, R388: fixed-point add, scalar-vector. -/
def execFxaddSv (vw : VReg) (rt : Reg) (vd : VReg) (rd : Reg) (s : State) : Result :=
  fixedPoint (.fxaddSv vw rt vd rd) .add vw (s.sv rt vd) rd s

/-- FXSUB.VV, R389: fixed-point subtract, vector-vector. -/
def execFxsubVv (vw vd vt : VReg) (rd : Reg) (s : State) : Result :=
  fixedPoint (.fxsubVv vw vd vt rd) .sub vw (s.vv vd vt) rd s

/-- FXSUB.VS, R390: fixed-point subtract, vector-scalar. -/
def execFxsubVs (vw vd : VReg) (rt rd : Reg) (s : State) : Result :=
  fixedPoint (.fxsubVs vw vd rt rd) .sub vw (s.vs vd rt) rd s

/-- FXSUB.SV, R391: fixed-point subtract, scalar-vector. -/
def execFxsubSv (vw : VReg) (rt : Reg) (vd : VReg) (rd : Reg) (s : State) : Result :=
  fixedPoint (.fxsubSv vw rt vd rd) .sub vw (s.sv rt vd) rd s

/-- FXMUL.VV, R392: fixed-point multiply, vector-vector. -/
def execFxmulVv (vw vd vt : VReg) (rd : Reg) (s : State) : Result :=
  fixedPoint (.fxmulVv vw vd vt rd) .mul vw (s.vv vd vt) rd s

/-- FXMUL.VS, R393: fixed-point multiply, vector-scalar. -/
def execFxmulVs (vw vd : VReg) (rt rd : Reg) (s : State) : Result :=
  fixedPoint (.fxmulVs vw vd rt rd) .mul vw (s.vs vd rt) rd s

/-- FXMUL.SV, R394: fixed-point multiply, scalar-vector. -/
def execFxmulSv (vw : VReg) (rt : Reg) (vd : VReg) (rd : Reg) (s : State) : Result :=
  fixedPoint (.fxmulSv vw rt vd rd) .mul vw (s.sv rt vd) rd s

end Sys2Proof.Machine
end

