-- ==== Sys2Proof/Machine/VuInsertExtract.lean ====
section
/-! DEFINITION. The vector insert and extract instructions (file 43). -/

namespace Sys2Proof.Machine

/-- Element number `k` of vector register `r`, zero outside the register (the meanings check first). -/
def State.elemAt (s : State) (r : VReg) (k : Nat) : Word := ((s.vreg r)[k]?).getD 0

/-- The unfinished loads that element number `k` of vector register `r` was computed from. -/
def State.waitsAt (s : State) (r : VReg) (k : Nat) : List Nat :=
  if h : k < Config.mvl then s.waitsOf r ⟨k, h⟩ else []

/-- VEXT.V, R251: copy `n` elements of `vt` from the index on into the first `n` of `vd`. -/
def execVextV (vd vt : VReg) (rd : Reg) (s : State) : Result :=
  vecIssue (.vextV vd vt rd) s fun n =>
    if Config.mvl < (n + s.index rd) % 256 then raise .vectorOperation s
    else if Config.mvl < n + s.index rd then .refused .extractOutsideRegister
    else .next (s.setElems vd n (fun i => s.elemAt vt (s.index rd + i.val))
      fun i => s.waitsAt vt (s.index rd + i.val)).advance

/-- VINS.S, R252: `v[vd][x[rd] & 0xFF] <- x[rt]`; `vlr` is not read (D12). -/
def execVinsS (rt : Reg) (vd : VReg) (rd : Reg) (s : State) : Result :=
  vuIssue (.vinsS rt vd rd) s <|
    if Config.mvl ≤ s.index rd then raise .vectorOperation s
    else .next (s.setElemsWhere vd Config.mvl (fun i => i.val == s.index rd) (fun _ => s.reg rt)
      noWaits).advance

/-- VEXT.S, R253: `x[rt] <- v[vd][x[rd] & 0xFF]`; `vlr` is not read (D12). -/
def execVextS (rt : Reg) (vd : VReg) (rd : Reg) (s : State) : Result :=
  vuIssue (.vextS rt vd rd) s <|
    if Config.mvl ≤ s.index rd then raise .vectorOperation s
    else writeReg rt (s.elemAt vd (s.index rd)) s

end Sys2Proof.Machine
end

