-- ==== Sys2Proof/Machine/VuInteger.lean ====
section
/-! DEFINITION. The vector integer arithmetic, logical and shift instructions (file 45). -/

namespace Sys2Proof.Machine

/-- The template of R301: `v[vw][i] <- f a b` for `i < n`. -/
def vecInt (i : Instr) (vw : VReg) (ab : Pairs) (f : Word → Word → Word) (s : State) : Result :=
  vecIssue i s fun n => .next (s.setElems vw n (fun e => f (ab.val e).1 (ab.val e).2) ab.waits).advance

/-- The template of R301 for add and sub: the low 32 bits of the exact 33-bit result, and a vovf bit for
every element that overflows (R310, R314, D28). -/
def vecIntOvf (i : Instr) (vw : VReg) (ab : Pairs) (f : Word → Word → BitVec 33) (s : State) : Result :=
  vecIssue i s fun n =>
    .next ((s.setElems vw n (fun e => (f (ab.val e).1 (ab.val e).2).setWidth 32) ab.waits).orVovf n
      fun e => overflows (f (ab.val e).1 (ab.val e).2)).advance

/-- AND.VV, R302: bitwise and, vector-vector. -/
def execAndVv (vw vd vt : VReg) (s : State) : Result :=
  vecInt (.andVv vw vd vt) vw (s.vv vd vt) (· &&& ·) s

/-- AND.VS, R303: bitwise and, vector-scalar. -/
def execAndVs (vw vd : VReg) (rt : Reg) (s : State) : Result :=
  vecInt (.andVs vw vd rt) vw (s.vs vd rt) (· &&& ·) s

/-- OR.VV, R304: bitwise or, vector-vector. -/
def execOrVv (vw vd vt : VReg) (s : State) : Result :=
  vecInt (.orVv vw vd vt) vw (s.vv vd vt) (· ||| ·) s

/-- OR.VS, R305: bitwise or, vector-scalar. -/
def execOrVs (vw vd : VReg) (rt : Reg) (s : State) : Result :=
  vecInt (.orVs vw vd rt) vw (s.vs vd rt) (· ||| ·) s

/-- XOR.VV, R306: bitwise exclusive or, vector-vector. -/
def execXorVv (vw vd vt : VReg) (s : State) : Result :=
  vecInt (.xorVv vw vd vt) vw (s.vv vd vt) (· ^^^ ·) s

/-- XOR.VS, R307: bitwise exclusive or, vector-scalar. -/
def execXorVs (vw vd : VReg) (rt : Reg) (s : State) : Result :=
  vecInt (.xorVs vw vd rt) vw (s.vs vd rt) (· ^^^ ·) s

/-- NOR.VV, R308: complement of the bitwise or, vector-vector. -/
def execNorVv (vw vd vt : VReg) (s : State) : Result :=
  vecInt (.norVv vw vd vt) vw (s.vv vd vt) (fun a b => ~~~(a ||| b)) s

/-- NOR.VS, R309: complement of the bitwise or, vector-scalar. -/
def execNorVs (vw vd : VReg) (rt : Reg) (s : State) : Result :=
  vecInt (.norVs vw vd rt) vw (s.vs vd rt) (fun a b => ~~~(a ||| b)) s

/-- ADD.VV, R310: sum with sticky overflow flags, vector-vector. -/
def execAddVv (vw vd vt : VReg) (s : State) : Result :=
  vecIntOvf (.addVv vw vd vt) vw (s.vv vd vt) sum33 s

/-- ADD.VS, R311: sum with sticky overflow flags, vector-scalar. -/
def execAddVs (vw vd : VReg) (rt : Reg) (s : State) : Result :=
  vecIntOvf (.addVs vw vd rt) vw (s.vs vd rt) sum33 s

/-- ADDU.VV, R312: sum modulo 2^32, vector-vector. -/
def execAdduVv (vw vd vt : VReg) (s : State) : Result :=
  vecInt (.adduVv vw vd vt) vw (s.vv vd vt) (· + ·) s

/-- ADDU.VS, R313: sum modulo 2^32, vector-scalar. -/
def execAdduVs (vw vd : VReg) (rt : Reg) (s : State) : Result :=
  vecInt (.adduVs vw vd rt) vw (s.vs vd rt) (· + ·) s

/-- SUB.VV, R314: difference with sticky overflow flags, vector-vector. -/
def execSubVv (vw vd vt : VReg) (s : State) : Result :=
  vecIntOvf (.subVv vw vd vt) vw (s.vv vd vt) diff33 s

/-- SUB.VS, R315: difference with sticky overflow flags, vector-scalar. -/
def execSubVs (vw vd : VReg) (rt : Reg) (s : State) : Result :=
  vecIntOvf (.subVs vw vd rt) vw (s.vs vd rt) diff33 s

/-- SUB.SV, R316: difference with sticky overflow flags, scalar-vector. -/
def execSubSv (vw : VReg) (rt : Reg) (vd : VReg) (s : State) : Result :=
  vecIntOvf (.subSv vw rt vd) vw (s.sv rt vd) diff33 s

/-- SUBU.VV, R317: difference modulo 2^32, vector-vector. -/
def execSubuVv (vw vd vt : VReg) (s : State) : Result :=
  vecInt (.subuVv vw vd vt) vw (s.vv vd vt) (· - ·) s

/-- SUBU.VS, R318: difference modulo 2^32, vector-scalar. -/
def execSubuVs (vw vd : VReg) (rt : Reg) (s : State) : Result :=
  vecInt (.subuVs vw vd rt) vw (s.vs vd rt) (· - ·) s

/-- SUBU.SV, R319: difference modulo 2^32, scalar-vector. -/
def execSubuSv (vw : VReg) (rt : Reg) (vd : VReg) (s : State) : Result :=
  vecInt (.subuSv vw rt vd) vw (s.sv rt vd) (· - ·) s

/-- SLLV.VV, R320: shift left by the low five bits of the second operand, vector-vector. -/
def execSllvVv (vw vd vt : VReg) (s : State) : Result :=
  vecInt (.sllvVv vw vd vt) vw (s.vv vd vt) (fun a b => a <<< shiftCount b) s

/-- SLLV.VS, R321: shift left by the low five bits of the second operand, vector-scalar. -/
def execSllvVs (vw vd : VReg) (rt : Reg) (s : State) : Result :=
  vecInt (.sllvVs vw vd rt) vw (s.vs vd rt) (fun a b => a <<< shiftCount b) s

/-- SLLV.SV, R322: shift left by the low five bits of the second operand, scalar-vector. -/
def execSllvSv (vw : VReg) (rt : Reg) (vd : VReg) (s : State) : Result :=
  vecInt (.sllvSv vw rt vd) vw (s.sv rt vd) (fun a b => a <<< shiftCount b) s

/-- SRAV.VV, R323: arithmetic shift right by the low five bits of the second
operand, vector-vector. -/
def execSravVv (vw vd vt : VReg) (s : State) : Result :=
  vecInt (.sravVv vw vd vt) vw (s.vv vd vt) (fun a b => a.sshiftRight (shiftCount b)) s

/-- SRAV.VS, R324: arithmetic shift right by the low five bits of the second
operand, vector-scalar. -/
def execSravVs (vw vd : VReg) (rt : Reg) (s : State) : Result :=
  vecInt (.sravVs vw vd rt) vw (s.vs vd rt) (fun a b => a.sshiftRight (shiftCount b)) s

/-- SRAV.SV, R325: arithmetic shift right by the low five bits of the second
operand, scalar-vector. -/
def execSravSv (vw : VReg) (rt : Reg) (vd : VReg) (s : State) : Result :=
  vecInt (.sravSv vw rt vd) vw (s.sv rt vd) (fun a b => a.sshiftRight (shiftCount b)) s

/-- SRLV.VV, R326: logical shift right by the low five bits of the second
operand, vector-vector. -/
def execSrlvVv (vw vd vt : VReg) (s : State) : Result :=
  vecInt (.srlvVv vw vd vt) vw (s.vv vd vt) (fun a b => a >>> shiftCount b) s

/-- SRLV.VS, R327: logical shift right by the low five bits of the second
operand, vector-scalar. -/
def execSrlvVs (vw vd : VReg) (rt : Reg) (s : State) : Result :=
  vecInt (.srlvVs vw vd rt) vw (s.vs vd rt) (fun a b => a >>> shiftCount b) s

/-- SRLV.SV, R328: logical shift right by the low five bits of the second
operand, scalar-vector. -/
def execSrlvSv (vw : VReg) (rt : Reg) (vd : VReg) (s : State) : Result :=
  vecInt (.srlvSv vw rt vd) vw (s.sv rt vd) (fun a b => a >>> shiftCount b) s

end Sys2Proof.Machine
end

