-- ==== Sys2Proof/Machine/VuLoadStore.lean ====
section
/-! DEFINITION. The vector loads and stores (file 44). -/

namespace Sys2Proof.Machine

/-- The element accesses of a vector load or store (R69, R261); that of element `i` uses the values of the
unfinished loads `after i`. -/
def vecAccesses (kind : AccessKind) (addrs : Addrs) (size n : Nat) (after : Waits) : List Access :=
  (elems n).map fun i => ⟨.vector, kind, addrs i, size, after i⟩

/-- The lowest-numbered element whose address is misaligned (R262). -/
def firstMisaligned (addrs : Addrs) (size n : Nat) : Option Elem :=
  (elems n).find? fun i => misaligned (addrs i) size

/-- The alignment check of the strided and indexed forms (R262, R435). -/
def alignedElems (addrs : Addrs) (size n : Nat) (s : State) (k : Result) : Result :=
  match firstMisaligned addrs size n with
  | some i => raise (.vectorAddress (addrs i)) s
  | none => k

/-- The elements `j < n` of a vector store that have the address of element `i`. -/
def sharers (addrs : Addrs) (n : Nat) (i : Elem) : List Elem :=
  (elems n).filter fun j => addrs j == addrs i

/-- The element whose value remains at the address of element `i`: the only one there, or any one of
those that share it, one draw per address (R70, R263, U12). -/
def State.survivor (s : State) (addrs : Addrs) (n : Nat) (i : Elem) : Elem :=
  match sharers addrs n i with
  | [] => i
  | [j] => j
  | j :: k :: js => ((j :: k :: js)[(s.draw j.val).toNat % (js.length + 2)]?).getD j

/-- Memory after a vector store of the values `f` (R263): at each address the value of its survivor. -/
def State.storeElems (s : State) (addrs : Addrs) (size n : Nat) (f : Elem → Word) : State :=
  (elems n).foldl (fun t i => t.store (addrs i) size (f (s.survivor addrs n i))) s

/-- The transfer of a vector load (R263): the accesses, then every element from the memory as it is. An
element waits for its own access, and for the loads `aw` its address came from. -/
def vecLoad (vd : VReg) (addrs : Addrs) (aw : Waits) (w : Width) (n : Nat) (s : State)
    (k : State → Result) : Result :=
  s.accessing (vecAccesses .read addrs w.size n aw) fun t =>
    k (t.setElems vd n (fun i => w.widen (s.load (addrs i) w.size))
      fun i => (s.pending.length + i.val) :: aw i)

/-- The transfer of a vector store (R263); an element comes after the loads its value and its address came
from. A store draws one free value per element, used only where element addresses coincide. -/
def vecStore (vd : VReg) (addrs : Addrs) (aw : Waits) (w : Width) (n : Nat) (s : State)
    (k : State → Result) : Result :=
  s.accessing (vecAccesses .write addrs w.size n fun i => s.waitsOf vd i ++ aw i) fun t =>
    k ((t.storeElems addrs w.size n fun i => s.elem vd i).consume n)

/-- A transfer of the element values with given addresses: `vecLoad` or `vecStore`. -/
abbrev Transfer := VReg → Addrs → Waits → Width → Nat → State → (State → Result) → Result

/-- The unit-stride forms (R264): `rd = rt` is refused, the base is checked even when `n = 0`, and after
the transfer `x[rd] <- (b + x[rt])[31:0]`. -/
def unitStride (i : Instr) (transfer : Transfer) (w : Width) (vd : VReg) (rd rt : Reg) (s : State) :
    Result :=
  vecIssue i s fun n =>
    if rd = rt then .refused .incrementIsBase
    else if misaligned (s.reg rd) w.size then raise (.vectorAddress (s.reg rd)) s
    else transfer vd (s.unitAddrs rd w.size) noWaits w n s fun t =>
      .next (t.setReg rd (s.reg rd + s.reg rt)).advance

/-- The strided and indexed forms (R261, R262); the addresses came from the loads `aw`. -/
def addressed (i : Instr) (transfer : Transfer) (w : Width) (vd : VReg) (addrs : Addrs) (aw : Waits)
    (s : State) : Result :=
  vecIssue i s fun n =>
    alignedElems addrs w.size n s (transfer vd addrs aw w n s fun t => .next t.advance)

/-- LBAI.V, R265: load sign-extended byte elements, unit stride with post-increment. -/
def execLbaiV (vd : VReg) (rd rt : Reg) (s : State) : Result :=
  unitStride (.lbaiV vd rd rt) vecLoad .byte vd rd rt s

/-- LHAI.V, R266: load sign-extended halfword elements, unit stride with post-increment. -/
def execLhaiV (vd : VReg) (rd rt : Reg) (s : State) : Result :=
  unitStride (.lhaiV vd rd rt) vecLoad .half vd rd rt s

/-- LWAI.V, R267: load word elements, unit stride with post-increment. -/
def execLwaiV (vd : VReg) (rd rt : Reg) (s : State) : Result :=
  unitStride (.lwaiV vd rd rt) vecLoad .word vd rd rt s

/-- LBUAI.V, R268: load zero-extended byte elements, unit stride with post-increment. -/
def execLbuaiV (vd : VReg) (rd rt : Reg) (s : State) : Result :=
  unitStride (.lbuaiV vd rd rt) vecLoad .byteU vd rd rt s

/-- LHUAI.V, R269: load zero-extended halfword elements, unit stride with post-increment. -/
def execLhuaiV (vd : VReg) (rd rt : Reg) (s : State) : Result :=
  unitStride (.lhuaiV vd rd rt) vecLoad .halfU vd rd rt s

/-- LBX.V, R270: load sign-extended byte elements, indexed. -/
def execLbxV (vd : VReg) (rd : Reg) (vt : VReg) (s : State) : Result :=
  addressed (.lbxV vd rd vt) vecLoad .byte vd (s.indexAddrs rd vt) (s.waitsOf vt) s

/-- LHX.V, R271: load sign-extended halfword elements, indexed. -/
def execLhxV (vd : VReg) (rd : Reg) (vt : VReg) (s : State) : Result :=
  addressed (.lhxV vd rd vt) vecLoad .half vd (s.indexAddrs rd vt) (s.waitsOf vt) s

/-- LWX.V, R272: load word elements, indexed. -/
def execLwxV (vd : VReg) (rd : Reg) (vt : VReg) (s : State) : Result :=
  addressed (.lwxV vd rd vt) vecLoad .word vd (s.indexAddrs rd vt) (s.waitsOf vt) s

/-- LBUX.V, R273: load zero-extended byte elements, indexed. -/
def execLbuxV (vd : VReg) (rd : Reg) (vt : VReg) (s : State) : Result :=
  addressed (.lbuxV vd rd vt) vecLoad .byteU vd (s.indexAddrs rd vt) (s.waitsOf vt) s

/-- LHUX.V, R274: load zero-extended halfword elements, indexed. -/
def execLhuxV (vd : VReg) (rd : Reg) (vt : VReg) (s : State) : Result :=
  addressed (.lhuxV vd rd vt) vecLoad .halfU vd (s.indexAddrs rd vt) (s.waitsOf vt) s

/-- LBST.V, R275: load sign-extended byte elements, strided. -/
def execLbstV (vd : VReg) (rd rt : Reg) (s : State) : Result :=
  addressed (.lbstV vd rd rt) vecLoad .byte vd (s.strideAddrs rd rt) noWaits s

/-- LHST.V, R276: load sign-extended halfword elements, strided. -/
def execLhstV (vd : VReg) (rd rt : Reg) (s : State) : Result :=
  addressed (.lhstV vd rd rt) vecLoad .half vd (s.strideAddrs rd rt) noWaits s

/-- LWST.V, R277: load word elements, strided. -/
def execLwstV (vd : VReg) (rd rt : Reg) (s : State) : Result :=
  addressed (.lwstV vd rd rt) vecLoad .word vd (s.strideAddrs rd rt) noWaits s

/-- LBUST.V, R278: load zero-extended byte elements, strided. -/
def execLbustV (vd : VReg) (rd rt : Reg) (s : State) : Result :=
  addressed (.lbustV vd rd rt) vecLoad .byteU vd (s.strideAddrs rd rt) noWaits s

/-- LHUST.V, R279: load zero-extended halfword elements, strided. -/
def execLhustV (vd : VReg) (rd rt : Reg) (s : State) : Result :=
  addressed (.lhustV vd rd rt) vecLoad .halfU vd (s.strideAddrs rd rt) noWaits s

/-- SBAI.V, R280: store byte elements, unit stride with post-increment. -/
def execSbaiV (vd : VReg) (rd rt : Reg) (s : State) : Result :=
  unitStride (.sbaiV vd rd rt) vecStore .byte vd rd rt s

/-- SHAI.V, R281: store halfword elements, unit stride with post-increment. -/
def execShaiV (vd : VReg) (rd rt : Reg) (s : State) : Result :=
  unitStride (.shaiV vd rd rt) vecStore .half vd rd rt s

/-- SWAI.V, R282: store word elements, unit stride with post-increment. -/
def execSwaiV (vd : VReg) (rd rt : Reg) (s : State) : Result :=
  unitStride (.swaiV vd rd rt) vecStore .word vd rd rt s

/-- SBX.V, R283: store byte elements, indexed. -/
def execSbxV (vd : VReg) (rd : Reg) (vt : VReg) (s : State) : Result :=
  addressed (.sbxV vd rd vt) vecStore .byte vd (s.indexAddrs rd vt) (s.waitsOf vt) s

/-- SHX.V, R284: store halfword elements, indexed. -/
def execShxV (vd : VReg) (rd : Reg) (vt : VReg) (s : State) : Result :=
  addressed (.shxV vd rd vt) vecStore .half vd (s.indexAddrs rd vt) (s.waitsOf vt) s

/-- SWX.V, R285: store word elements, indexed. -/
def execSwxV (vd : VReg) (rd : Reg) (vt : VReg) (s : State) : Result :=
  addressed (.swxV vd rd vt) vecStore .word vd (s.indexAddrs rd vt) (s.waitsOf vt) s

/-- SBST.V, R286: store byte elements, strided. -/
def execSbstV (vd : VReg) (rd rt : Reg) (s : State) : Result :=
  addressed (.sbstV vd rd rt) vecStore .byte vd (s.strideAddrs rd rt) noWaits s

/-- SHST.V, R287: store halfword elements, strided. -/
def execShstV (vd : VReg) (rd rt : Reg) (s : State) : Result :=
  addressed (.shstV vd rd rt) vecStore .half vd (s.strideAddrs rd rt) noWaits s

/-- SWST.V, R288: store word elements, strided. -/
def execSwstV (vd : VReg) (rd rt : Reg) (s : State) : Result :=
  addressed (.swstV vd rd rt) vecStore .word vd (s.strideAddrs rd rt) noWaits s

end Sys2Proof.Machine
end

