-- ==== Sys2Proof/Machine/Dispatch.lean ====
section
/-! DEFINITION. One arm per instruction, each one call of its meaning. -/

namespace Sys2Proof.Machine

def exec (i : Instr) (s : State) : Host.Outcome State Fault Refusal :=
  match i with
  | .add rd rs rt => Sys2Proof.Machine.execAdd rd rs rt s
  | .addu rd rs rt => Sys2Proof.Machine.execAddu rd rs rt s
  | .sub rd rs rt => Sys2Proof.Machine.execSub rd rs rt s
  | .subu rd rs rt => Sys2Proof.Machine.execSubu rd rs rt s
  | .and rd rs rt => Sys2Proof.Machine.execAnd rd rs rt s
  | .or rd rs rt => Sys2Proof.Machine.execOr rd rs rt s
  | .xor rd rs rt => Sys2Proof.Machine.execXor rd rs rt s
  | .nor rd rs rt => Sys2Proof.Machine.execNor rd rs rt s
  | .slt rd rs rt => Sys2Proof.Machine.execSlt rd rs rt s
  | .sltu rd rs rt => Sys2Proof.Machine.execSltu rd rs rt s
  | .sll rd rt sa => Sys2Proof.Machine.execSll rd rt sa s
  | .srl rd rt sa => Sys2Proof.Machine.execSrl rd rt sa s
  | .sra rd rt sa => Sys2Proof.Machine.execSra rd rt sa s
  | .sllv rd rt rs => Sys2Proof.Machine.execSllv rd rt rs s
  | .srlv rd rt rs => Sys2Proof.Machine.execSrlv rd rt rs s
  | .srav rd rt rs => Sys2Proof.Machine.execSrav rd rt rs s
  | .addi rt rs imm => Sys2Proof.Machine.execAddi rt rs imm s
  | .addiu rt rs imm => Sys2Proof.Machine.execAddiu rt rs imm s
  | .slti rt rs imm => Sys2Proof.Machine.execSlti rt rs imm s
  | .sltiu rt rs imm => Sys2Proof.Machine.execSltiu rt rs imm s
  | .andi rt rs imm => Sys2Proof.Machine.execAndi rt rs imm s
  | .ori rt rs imm => Sys2Proof.Machine.execOri rt rs imm s
  | .xori rt rs imm => Sys2Proof.Machine.execXori rt rs imm s
  | .lui rt imm => Sys2Proof.Machine.execLui rt imm s
  | .mult rs rt => Sys2Proof.Machine.execMult rs rt s
  | .multu rs rt => Sys2Proof.Machine.execMultu rs rt s
  | .div rs rt => Sys2Proof.Machine.execDiv rs rt s
  | .divu rs rt => Sys2Proof.Machine.execDivu rs rt s
  | .mfhi rd => Sys2Proof.Machine.execMfhi rd s
  | .mthi rs => Sys2Proof.Machine.execMthi rs s
  | .mflo rd => Sys2Proof.Machine.execMflo rd s
  | .mtlo rs => Sys2Proof.Machine.execMtlo rs s
  | .lb rt offset base => Sys2Proof.Machine.execLb rt offset base s
  | .lbu rt offset base => Sys2Proof.Machine.execLbu rt offset base s
  | .lh rt offset base => Sys2Proof.Machine.execLh rt offset base s
  | .lhu rt offset base => Sys2Proof.Machine.execLhu rt offset base s
  | .lw rt offset base => Sys2Proof.Machine.execLw rt offset base s
  | .lwl rt offset base => Sys2Proof.Machine.execLwl rt offset base s
  | .lwr rt offset base => Sys2Proof.Machine.execLwr rt offset base s
  | .sb rt offset base => Sys2Proof.Machine.execSb rt offset base s
  | .sh rt offset base => Sys2Proof.Machine.execSh rt offset base s
  | .sw rt offset base => Sys2Proof.Machine.execSw rt offset base s
  | .swl rt offset base => Sys2Proof.Machine.execSwl rt offset base s
  | .swr rt offset base => Sys2Proof.Machine.execSwr rt offset base s
  | .ll rt offset base => Sys2Proof.Machine.execLl rt offset base s
  | .sc rt offset base => Sys2Proof.Machine.execSc rt offset base s
  | .sync => Sys2Proof.Machine.execSync s
  | .j target => Sys2Proof.Machine.execJ target s
  | .jal target => Sys2Proof.Machine.execJal target s
  | .jr rs => Sys2Proof.Machine.execJr rs s
  | .jalr rd rs => Sys2Proof.Machine.execJalr rd rs s
  | .beq rs rt offset => Sys2Proof.Machine.execBeq rs rt offset s
  | .bne rs rt offset => Sys2Proof.Machine.execBne rs rt offset s
  | .blez rs offset => Sys2Proof.Machine.execBlez rs offset s
  | .bgtz rs offset => Sys2Proof.Machine.execBgtz rs offset s
  | .bltz rs offset => Sys2Proof.Machine.execBltz rs offset s
  | .bgez rs offset => Sys2Proof.Machine.execBgez rs offset s
  | .bltzal rs offset => Sys2Proof.Machine.execBltzal rs offset s
  | .bgezal rs offset => Sys2Proof.Machine.execBgezal rs offset s
  | .beql rs rt offset => Sys2Proof.Machine.execBeql rs rt offset s
  | .bnel rs rt offset => Sys2Proof.Machine.execBnel rs rt offset s
  | .blezl rs offset => Sys2Proof.Machine.execBlezl rs offset s
  | .bgtzl rs offset => Sys2Proof.Machine.execBgtzl rs offset s
  | .bltzl rs offset => Sys2Proof.Machine.execBltzl rs offset s
  | .bgezl rs offset => Sys2Proof.Machine.execBgezl rs offset s
  | .bltzall rs offset => Sys2Proof.Machine.execBltzall rs offset s
  | .bgezall rs offset => Sys2Proof.Machine.execBgezall rs offset s
  | .tge rs rt code => Sys2Proof.Machine.execTge rs rt code s
  | .tgeu rs rt code => Sys2Proof.Machine.execTgeu rs rt code s
  | .tlt rs rt code => Sys2Proof.Machine.execTlt rs rt code s
  | .tltu rs rt code => Sys2Proof.Machine.execTltu rs rt code s
  | .teq rs rt code => Sys2Proof.Machine.execTeq rs rt code s
  | .tne rs rt code => Sys2Proof.Machine.execTne rs rt code s
  | .tgei rs imm => Sys2Proof.Machine.execTgei rs imm s
  | .tgeiu rs imm => Sys2Proof.Machine.execTgeiu rs imm s
  | .tlti rs imm => Sys2Proof.Machine.execTlti rs imm s
  | .tltiu rs imm => Sys2Proof.Machine.execTltiu rs imm s
  | .teqi rs imm => Sys2Proof.Machine.execTeqi rs imm s
  | .tnei rs imm => Sys2Proof.Machine.execTnei rs imm s
  | .syscall code => Sys2Proof.Machine.execSyscall code s
  | .brk code => Sys2Proof.Machine.execBrk code s
  | .cop0 cofun => Sys2Proof.Machine.execCop0 cofun s
  | .cop1 cofun => Sys2Proof.Machine.execCop1 cofun s
  | .cop3 cofun => Sys2Proof.Machine.execCop3 cofun s
  | .lwc1 rt offset base => Sys2Proof.Machine.execLwc1 rt offset base s
  | .swc1 rt offset base => Sys2Proof.Machine.execSwc1 rt offset base s
  | .ldc1 rt offset base => Sys2Proof.Machine.execLdc1 rt offset base s
  | .sdc1 rt offset base => Sys2Proof.Machine.execSdc1 rt offset base s
  | .lwc2 rt offset base => Sys2Proof.Machine.execLwc2 rt offset base s
  | .swc2 rt offset base => Sys2Proof.Machine.execSwc2 rt offset base s
  | .ldc2 rt offset base => Sys2Proof.Machine.execLdc2 rt offset base s
  | .sdc2 rt offset base => Sys2Proof.Machine.execSdc2 rt offset base s
  | .lwc3 rt offset base => Sys2Proof.Machine.execLwc3 rt offset base s
  | .swc3 rt offset base => Sys2Proof.Machine.execSwc3 rt offset base s
  | .mfc2 low => Sys2Proof.Machine.execMfc2 low s
  | .mtc2 low => Sys2Proof.Machine.execMtc2 low s
  | .bc2f offset => Sys2Proof.Machine.execBc2f offset s
  | .bc2t offset => Sys2Proof.Machine.execBc2t offset s
  | .bc2fl offset => Sys2Proof.Machine.execBc2fl offset s
  | .bc2tl offset => Sys2Proof.Machine.execBc2tl offset s
  | .cfvu rt cs => Sys2Proof.Machine.execCfvu rt cs s
  | .ctvu rt cs => Sys2Proof.Machine.execCtvu rt cs s
  | .vextV vd vt rd => Sys2Proof.Machine.execVextV vd vt rd s
  | .vinsS rt vd rd => Sys2Proof.Machine.execVinsS rt vd rd s
  | .vextS rt vd rd => Sys2Proof.Machine.execVextS rt vd rd s
  | .lbaiV vd rd rt => Sys2Proof.Machine.execLbaiV vd rd rt s
  | .lhaiV vd rd rt => Sys2Proof.Machine.execLhaiV vd rd rt s
  | .lwaiV vd rd rt => Sys2Proof.Machine.execLwaiV vd rd rt s
  | .lbuaiV vd rd rt => Sys2Proof.Machine.execLbuaiV vd rd rt s
  | .lhuaiV vd rd rt => Sys2Proof.Machine.execLhuaiV vd rd rt s
  | .lbxV vd rd vt => Sys2Proof.Machine.execLbxV vd rd vt s
  | .lhxV vd rd vt => Sys2Proof.Machine.execLhxV vd rd vt s
  | .lwxV vd rd vt => Sys2Proof.Machine.execLwxV vd rd vt s
  | .lbuxV vd rd vt => Sys2Proof.Machine.execLbuxV vd rd vt s
  | .lhuxV vd rd vt => Sys2Proof.Machine.execLhuxV vd rd vt s
  | .lbstV vd rd rt => Sys2Proof.Machine.execLbstV vd rd rt s
  | .lhstV vd rd rt => Sys2Proof.Machine.execLhstV vd rd rt s
  | .lwstV vd rd rt => Sys2Proof.Machine.execLwstV vd rd rt s
  | .lbustV vd rd rt => Sys2Proof.Machine.execLbustV vd rd rt s
  | .lhustV vd rd rt => Sys2Proof.Machine.execLhustV vd rd rt s
  | .sbaiV vd rd rt => Sys2Proof.Machine.execSbaiV vd rd rt s
  | .shaiV vd rd rt => Sys2Proof.Machine.execShaiV vd rd rt s
  | .swaiV vd rd rt => Sys2Proof.Machine.execSwaiV vd rd rt s
  | .sbxV vd rd vt => Sys2Proof.Machine.execSbxV vd rd vt s
  | .shxV vd rd vt => Sys2Proof.Machine.execShxV vd rd vt s
  | .swxV vd rd vt => Sys2Proof.Machine.execSwxV vd rd vt s
  | .sbstV vd rd rt => Sys2Proof.Machine.execSbstV vd rd rt s
  | .shstV vd rd rt => Sys2Proof.Machine.execShstV vd rd rt s
  | .swstV vd rd rt => Sys2Proof.Machine.execSwstV vd rd rt s
  | .andVv vw vd vt => Sys2Proof.Machine.execAndVv vw vd vt s
  | .andVs vw vd rt => Sys2Proof.Machine.execAndVs vw vd rt s
  | .orVv vw vd vt => Sys2Proof.Machine.execOrVv vw vd vt s
  | .orVs vw vd rt => Sys2Proof.Machine.execOrVs vw vd rt s
  | .xorVv vw vd vt => Sys2Proof.Machine.execXorVv vw vd vt s
  | .xorVs vw vd rt => Sys2Proof.Machine.execXorVs vw vd rt s
  | .norVv vw vd vt => Sys2Proof.Machine.execNorVv vw vd vt s
  | .norVs vw vd rt => Sys2Proof.Machine.execNorVs vw vd rt s
  | .addVv vw vd vt => Sys2Proof.Machine.execAddVv vw vd vt s
  | .addVs vw vd rt => Sys2Proof.Machine.execAddVs vw vd rt s
  | .adduVv vw vd vt => Sys2Proof.Machine.execAdduVv vw vd vt s
  | .adduVs vw vd rt => Sys2Proof.Machine.execAdduVs vw vd rt s
  | .subVv vw vd vt => Sys2Proof.Machine.execSubVv vw vd vt s
  | .subVs vw vd rt => Sys2Proof.Machine.execSubVs vw vd rt s
  | .subSv vw rt vd => Sys2Proof.Machine.execSubSv vw rt vd s
  | .subuVv vw vd vt => Sys2Proof.Machine.execSubuVv vw vd vt s
  | .subuVs vw vd rt => Sys2Proof.Machine.execSubuVs vw vd rt s
  | .subuSv vw rt vd => Sys2Proof.Machine.execSubuSv vw rt vd s
  | .sllvVv vw vd vt => Sys2Proof.Machine.execSllvVv vw vd vt s
  | .sllvVs vw vd rt => Sys2Proof.Machine.execSllvVs vw vd rt s
  | .sllvSv vw rt vd => Sys2Proof.Machine.execSllvSv vw rt vd s
  | .sravVv vw vd vt => Sys2Proof.Machine.execSravVv vw vd vt s
  | .sravVs vw vd rt => Sys2Proof.Machine.execSravVs vw vd rt s
  | .sravSv vw rt vd => Sys2Proof.Machine.execSravSv vw rt vd s
  | .srlvVv vw vd vt => Sys2Proof.Machine.execSrlvVv vw vd vt s
  | .srlvVs vw vd rt => Sys2Proof.Machine.execSrlvVs vw vd rt s
  | .srlvSv vw rt vd => Sys2Proof.Machine.execSrlvSv vw rt vd s
  | .sltVv vw vd vt => Sys2Proof.Machine.execSltVv vw vd vt s
  | .sltVs vw vd rt => Sys2Proof.Machine.execSltVs vw vd rt s
  | .sltSv vw rt vd => Sys2Proof.Machine.execSltSv vw rt vd s
  | .sltuVv vw vd vt => Sys2Proof.Machine.execSltuVv vw vd vt s
  | .sltuVs vw vd rt => Sys2Proof.Machine.execSltuVs vw vd rt s
  | .sltuSv vw rt vd => Sys2Proof.Machine.execSltuSv vw rt vd s
  | .seqVv vw vd vt => Sys2Proof.Machine.execSeqVv vw vd vt s
  | .seqVs vw vd rt => Sys2Proof.Machine.execSeqVs vw vd rt s
  | .fltVv vd vt => Sys2Proof.Machine.execFltVv vd vt s
  | .fltVs vd rt => Sys2Proof.Machine.execFltVs vd rt s
  | .fltSv rt vd => Sys2Proof.Machine.execFltSv rt vd s
  | .fltuVv vd vt => Sys2Proof.Machine.execFltuVv vd vt s
  | .fltuVs vd rt => Sys2Proof.Machine.execFltuVs vd rt s
  | .fltuSv rt vd => Sys2Proof.Machine.execFltuSv rt vd s
  | .feqVv vd vt => Sys2Proof.Machine.execFeqVv vd vt s
  | .feqVs vd rt => Sys2Proof.Machine.execFeqVs vd rt s
  | .cmvnezVv vw vd vt => Sys2Proof.Machine.execCmvnezVv vw vd vt s
  | .cmvgezVv vw vd vt => Sys2Proof.Machine.execCmvgezVv vw vd vt s
  | .cmvlezVv vw vd vt => Sys2Proof.Machine.execCmvlezVv vw vd vt s
  | .cmveqzVv vw vd vt => Sys2Proof.Machine.execCmveqzVv vw vd vt s
  | .cmvltzVv vw vd vt => Sys2Proof.Machine.execCmvltzVv vw vd vt s
  | .cmvgtzVv vw vd vt => Sys2Proof.Machine.execCmvgtzVv vw vd vt s
  | .cmvnezVs vw vd rt => Sys2Proof.Machine.execCmvnezVs vw vd rt s
  | .cmvgezVs vw vd rt => Sys2Proof.Machine.execCmvgezVs vw vd rt s
  | .cmvlezVs vw vd rt => Sys2Proof.Machine.execCmvlezVs vw vd rt s
  | .cmveqzVs vw vd rt => Sys2Proof.Machine.execCmveqzVs vw vd rt s
  | .cmvltzVs vw vd rt => Sys2Proof.Machine.execCmvltzVs vw vd rt s
  | .cmvgtzVs vw vd rt => Sys2Proof.Machine.execCmvgtzVs vw vd rt s
  | .fxaddVv vw vd vt rd => Sys2Proof.Machine.execFxaddVv vw vd vt rd s
  | .fxaddVs vw vd rt rd => Sys2Proof.Machine.execFxaddVs vw vd rt rd s
  | .fxaddSv vw rt vd rd => Sys2Proof.Machine.execFxaddSv vw rt vd rd s
  | .fxsubVv vw vd vt rd => Sys2Proof.Machine.execFxsubVv vw vd vt rd s
  | .fxsubVs vw vd rt rd => Sys2Proof.Machine.execFxsubVs vw vd rt rd s
  | .fxsubSv vw rt vd rd => Sys2Proof.Machine.execFxsubSv vw rt vd rd s
  | .fxmulVv vw vd vt rd => Sys2Proof.Machine.execFxmulVv vw vd vt rd s
  | .fxmulVs vw vd rt rd => Sys2Proof.Machine.execFxmulVs vw vd rt rd s
  | .fxmulSv vw rt vd rd => Sys2Proof.Machine.execFxmulSv vw rt vd rd s

end Sys2Proof.Machine
end

