-- ==== Sys2Proof/Machine/Fetch.lean ====
section
/-! DEFINITION. Fetching an instruction (R23, R77, R90, R437, R438), and placing one where the next step
fetches it. -/

namespace Sys2Proof.Machine

/-- What a fetch gives: an instruction to run, or the outcome of the step when none runs. -/
inductive Fetched where
  | run (i : Instr)
  | stop (r : Result)

/-- A byte of the instruction at `pc` has been stored to (R77). -/
def State.codeModified (s : State) : Bool :=
  s.stored.any fun x => overlaps x.addr x.size s.pc 4

/-- A word that decodes to no instruction (R107, R113, R432): a COP2 word first needs coprocessor 2 to be
usable (R433). -/
def reservedWord (w : Word) (s : State) : Result :=
  if opOf w = 0b010010#6 ∧ s.cu2 = false then raise (.coprocessorUnusable 2#2) s
  else raise (.reservedInstruction w) s

/-- What the bytes at `pc` say (R90, R64). -/
def decodeAtPc (s : State) : Fetched :=
  match decodeBytes s.params.bigEndian (s.bytes s.pc 4) with
  | .instr i => .run i
  | .reserved => .stop (reservedWord (s.load s.pc 4) s)
  | .truncated => .stop (reservedWord (s.load s.pc 4) s)
  | .unusedBits m => .stop (.refused (.unusedFieldBits m))

/-- The fetch at `pc` (R23, R436 to R438): the wrap of R23, the alignment, the backing, the immutable
program text, then the decoder. A bus error on the fetch itself is `BusError(pc)` (R438, item 1). -/
def fetch (s : State) : Fetched :=
  if s.acrossTop then .stop (.refused .sequentialWrap)
  else if misaligned s.pc 4 then .stop (raise (.addressErrorLoad s.pc) s)
  else
    match Params.firstUnbacked s.params s.pc 4 with
    | some _ => .stop (raise (.busError s.pc) s)
    | none => if s.codeModified then .stop (.refused .modifiedCode) else decodeAtPc s

/-- The fetch of a step: a machine that has taken an exception is at its terminal outcome (R440). -/
def fetchOrEnd (s : State) : Fetched :=
  match s.trap with
  | some t => .stop (.fault (.trapped t))
  | none => fetch s

/-- The parameters, with the four bytes from `a` backed. -/
def backWord (p : Params) (a : Word) : Params :=
  if (Params.firstUnbacked p a 4).isSome then { p with backed := ⟨a.toNat, 4⟩ :: p.backed } else p

/-- The word base of `pc`, unchanged when `pc` is aligned. -/
def fetchAddr (s : State) : Word := if misaligned s.pc 4 then s.pc &&& ~~~3#32 else s.pc

/-- The machine with the instruction word of `nbits` bits `w` loaded where the next step fetches: no
trap pending, an aligned backed `pc`, its bytes counted as program text again. -/
def placeWord (s : State) (nbits w : Nat) : State :=
  let a := fetchAddr s
  { s with
    trap := none, acrossTop := false, pc := a
    params := backWord s.params a
    stored := s.stored.filter fun x => !overlaps x.addr x.size a 4
    mem := Memory.writeBytes s.mem a (split s.params.bigEndian 4 (BitVec.ofNat 32 (w % 2 ^ nbits))) }

end Sys2Proof.Machine
end

