-- ==== Sys2Proof/Machine/Step.lean ====
section
/-! DEFINITION. One step of the machine: fetch, decode and run the instruction at `pc` (R22, R438). -/

namespace Sys2Proof.Machine

/-- One instruction. A machine that has taken an exception is at its terminal outcome (R440). -/
def step (s : State) : Host.Outcome State Fault Refusal :=
  match fetchOrEnd s with
  | .run i => exec i s
  | .stop r => r

/-- The machine with an instruction word stored where its next step fetches. -/
def State.withFetchWord (s : State) (nbits w : Nat) : State := placeWord s nbits w

end Sys2Proof.Machine
end

