-- ==== Sys2Proof/Safety.lean ====
section
/-! DEFINITION. The invariant that every step keeps, what counts as a safe step, and the terms the
claims are stated in: what an instruction may touch, what it leaves alone, and when it traps. -/

namespace Sys2Proof.Safety

open Sys2Proof.Machine

/-! ### The invariant -/

/-- The program counter and the delay slot agree (R22, R178): the instruction at `pc` follows the jump or
branch whose slot it is, and unless that was taken the next instruction is the next word. -/
def pcConsistent (s : State) : Prop :=
  match s.slot with
  | some b => b.branch + 4#32 = s.pc ∧ (b.taken = false → s.npc = s.pc + 4#32)
  | none => s.npc = s.pc + 4#32

/-- A recorded trap reports the instruction at `pc`, or the branch before it (R441). -/
def trapConsistent (s : State) : Prop :=
  match s.trap with
  | some t => if t.bd then t.epc + 4#32 = s.pc else t.epc = s.pc
  | none => True

/-- What a vector register element is said to wait for is an unfinished vector load (R48, R75). -/
def waitsConsistent (s : State) : Prop :=
  ∀ k e j, j ∈ s.waitsOf k e → ∃ x, s.pending[j]? = some x ∧ x.agent = .vector ∧ x.kind = .read

/-- The machine invariant: memory in canonical form (R60), `x[0]` and `$vr0` hold zero (R20, R25), the
program counters and the recorded trap are consistent (R22, R178, R441), and so is the record of
unfinished loads (R48, R75). -/
structure Inv (s : State) : Prop where
  mem_wf : Memory.wf s.mem = true
  x0_zero : s.regs[0] = 0#32
  vr0_zero : s.vregs[0] = Vector.replicate Config.mvl 0#32
  pc_ok : pcConsistent s
  trap_ok : trapConsistent s
  waits_ok : waitsConsistent s

/-- The step of `s` is an ordinary one: it goes on and takes no exception. -/
def safeStep (s : State) : Prop := ∃ t, Machine.step s = .next t ∧ t.trap = none

/-! ### What an instruction leaves alone -/

/-- What an instruction may change, besides the program counters. -/
structure Touches where
  regs : List Reg := []
  vregs : List VReg := []
  hiLo : Bool := false
  vcount : Bool := false
  vlr : Bool := false
  vcond : Bool := false
  vovf : Bool := false
  vsat : Bool := false
  /-- Floating-point general registers. -/
  fprs : List Reg := []
  fcr31 : Bool := false
  /-- `LLbit` and `LLaddr`. -/
  link : Bool := false
  /-- The record of memory accesses: unfinished ones, bytes stored to, a clean LL. -/
  record : Bool := false
  /-- The unfinished loads that every vector register was computed from (SYNC only; an instruction that
  writes a vector register changes that register's alone). -/
  waits : Bool := false
  /-- The count of free values drawn. -/
  draws : Bool := false
  /-- The bytes of memory. -/
  bytes : Word → Prop := fun _ => False

/-- From `s` to `t` nothing changed but what `m` names and the program counters. Writes to `x[0]` and to
`$vr0` are discarded (R20, R25), so those two never change. -/
structure Frame (m : Touches) (s t : State) : Prop where
  regs : ∀ r, r ∉ m.regs ∨ r = 0#5 → t.reg r = s.reg r
  vregs : ∀ k, k ∉ m.vregs ∨ k = 0#5 → ∀ e, t.elem k e = s.elem k e
  waits : m.waits = false → ∀ k, k ∉ m.vregs ∨ k = 0#5 → ∀ e, t.waitsOf k e = s.waitsOf k e
  hiLo : m.hiLo = false →
    t.hi = s.hi ∧ t.lo = s.lo ∧ t.hiFromMul = s.hiFromMul ∧ t.loFromMul = s.loFromMul
  vcount : m.vcount = false → t.vcount = s.vcount
  vlr : m.vlr = false → t.vlr = s.vlr
  vcond : m.vcond = false → t.vcond = s.vcond
  vovf : m.vovf = false → t.vovf = s.vovf
  vsat : m.vsat = false → t.vsat = s.vsat
  fprs : ∀ r, r ∉ m.fprs → t.fgr r = s.fgr r
  fcr31 : m.fcr31 = false → t.fcr31 = s.fcr31
  link : m.link = false → t.llBit = s.llBit ∧ t.llAddr = s.llAddr
  record : m.record = false → t.pending = s.pending ∧ t.stored = s.stored ∧ t.llClean = s.llClean
  draws : m.draws = false → t.draws = s.draws
  bytes : ∀ a, ¬ m.bytes a → t.byte a = s.byte a
  system : t.params = s.params ∧ t.cu2 = s.cu2 ∧ t.fcr0 = s.fcr0 ∧ t.trap = s.trap

/-- Control went on to the next instruction (R22). It ran on past the top of memory (R23) exactly when the
instruction at `0xFFFFFFFC` was not the delay slot of a taken jump. -/
def goesOn (s t : State) : Prop :=
  t.pc = s.npc ∧ t.npc = s.npc + 4#32 ∧ t.slot = none ∧
  (t.acrossTop = true ↔ s.pc = 0xFFFFFFFC#32 ∧ ∀ b, s.slot = some b → b.taken = false)

/-- Control went to the delay slot of a jump or branch, and then goes to `dest` (R178): the slot itself is
past the top of memory when the jump is at `0xFFFFFFFC` (R23). -/
def goesToSlot (s t : State) (taken : Bool) (dest : Word) : Prop :=
  t.pc = s.npc ∧ t.npc = dest ∧ t.slot = some ⟨s.pc, taken⟩ ∧
  (t.acrossTop = true ↔ s.pc = 0xFFFFFFFC#32)

/-- Control went past a nullified delay slot (R191), which is no delay slot of the instruction after it (the
model's deduction, log entry 19); it ran on past the top of memory when the branch or its slot is the last
word (R23). -/
def skipsSlot (s t : State) : Prop :=
  t.pc = s.npc + 4#32 ∧ t.npc = s.npc + 8#32 ∧ t.slot = none ∧
  (t.acrossTop = true ↔ s.pc = 0xFFFFFFFC#32 ∨ s.pc = 0xFFFFFFF8#32)

/-- The instruction completes with `v` in register `rd` and nothing else changed (a write to `x[0]` is
discarded). -/
def setsReg (i : Instr) (s : State) (rd : Reg) (v : Word) : Prop :=
  ∃ t, exec i s = .next t ∧ (rd ≠ 0#5 → t.reg rd = v) ∧ Frame { regs := [rd] } s t ∧ goesOn s t

/-! ### Exceptions -/

/-- The machine that has taken the exception `e`: the outcome is recorded, nothing else changed (R439 to
R441). -/
def withTrap (s : State) (e : Exception) : State :=
  match s.slot with
  | some b => { s with trap := some ⟨e, b.branch, true⟩ }
  | none => { s with trap := some ⟨e, s.pc, false⟩ }

/-- The instruction takes the exception `e`. -/
def traps (i : Instr) (s : State) (e : Exception) : Prop := exec i s = .next (withTrap s e)

/-! ### Memory accesses -/

/-- The accesses can be made: every byte is backed (R437) and none races with an unfinished access
(R74). -/
def accessible (s : State) (new : List Access) : Prop :=
  (∀ x ∈ new, Params.firstUnbacked s.params x.addr x.size = none) ∧ s.firstRace new = none

/-- The record of accesses grew by `new`, which loads or stores (R48, R74). -/
def recorded (s t : State) (new : List Access) : Prop :=
  t.pending = s.pending ++ new ∧
  t.stored = s.stored ++ (new.filter fun x => x.kind == .write).map (fun x => ⟨x.addr, x.size⟩) ∧
  t.llClean = false

/-- The bytes `a .. a+n-1`, as a predicate. -/
def within (a : Word) (n : Nat) (b : Word) : Prop := ∃ k, k < n ∧ b = byteAddr a k

/-- The access shares a byte with an unfinished one, a vector instruction takes part and one of the two
writes (R74 case 4); and the unfinished one is no load whose value it uses (R75). -/
def racing (s : State) (x : Access) : Prop :=
  ∃ j old, s.pending[j]? = some old ∧ j ∉ x.after ∧
    (old.agent = .vector ∨ x.agent = .vector) ∧ (old.kind = .write ∨ x.kind = .write) ∧
    old.addr.toNat < x.addr.toNat + x.size ∧ x.addr.toNat < old.addr.toNat + old.size

/-- The value of the `n` bytes from `a` as an unsigned number, in the byte order of R64. -/
def unsignedAt (s : State) (a : Word) (n : Nat) : Nat :=
  ((List.range n).map fun k =>
    (s.byte (byteAddr a k)).toNat * 256 ^ (if s.params.bigEndian then n - 1 - k else k)).sum

/-- The same bytes read as a two's-complement number. -/
def signedAt (s : State) (a : Word) (n : Nat) : Int :=
  (unsignedAt s a n : Int).bmod (256 ^ n)

/-- Byte `k` from the lowest address of an `n`-byte store of `w`, in the byte order of R64. -/
def storedByte (s : State) (n : Nat) (w : Word) (k : Nat) : Byte :=
  BitVec.ofNat 8 (w.toNat / 256 ^ (if s.params.bigEndian then n - 1 - k else k))

/-! ### Vector instructions -/

/-- The checks every coprocessor 2 instruction makes first are passed (R106, R433). -/
def vuUsable (i : Instr) (s : State) : Prop :=
  s.cu2 = true ∧ ∀ k ∈ i.vregs, k.toNat < Config.nvreg

/-- The whole preamble of a vector instruction is passed (R15): it processes elements `0 .. vlr-1`. -/
def vecReady (i : Instr) (s : State) : Prop := vuUsable i s ∧ s.vlr.toNat ≤ Config.mvl

/-- The first `vlr` elements of `vw` are `f`, the others are as before (R27); nothing is written to
`$vr0` (R25). -/
def elemsAre (s t : State) (vw : VReg) (f : Elem → Word) : Prop :=
  vw ≠ 0#5 → ∀ e : Elem, t.elem vw e = if e.val < s.vlr.toNat then f e else s.elem vw e

/-- The first `vlr` elements of `vw` are computed from the unfinished loads `d`, the others from those they
were computed from before (R75). -/
def waitsAre (s t : State) (vw : VReg) (d : Waits) : Prop :=
  vw ≠ 0#5 → ∀ (e : Elem) (j : Nat),
    j ∈ t.waitsOf vw e ↔ if e.val < s.vlr.toNat then j ∈ d e else j ∈ s.waitsOf vw e

end Sys2Proof.Safety
end

