-- ==== Sys2Proof/Certificates/Slice0/Obligations.lean ====
section
/-! DEFINITION. The statements for the provers, and the tables of instructions of one shape that they
range over. Results are stated in integers and natural numbers, not in the model's own operations. -/

namespace Sys2Proof.Claims

open Sys2Proof.Machine Sys2Proof.Safety

/-! ### Values -/

/-- 1 when the comparison holds, else 0 (R130). -/
def truth (p : Prop) [Decidable p] : Word := if p then 1#32 else 0#32

/-- `(a << n)[31:0]`. -/
def shiftLeft (a : Word) (n : Nat) : Word := BitVec.ofNat 32 (a.toNat * 2 ^ n)
/-- `a >> n`, zeros shifted in. -/
def shiftRight (a : Word) (n : Nat) : Word := BitVec.ofNat 32 (a.toNat / 2 ^ n)
/-- `(signed(a) >> n)[31:0]`: the floor of the quotient. -/
def shiftArith (a : Word) (n : Nat) : Word := BitVec.ofInt 32 (a.toInt / 2 ^ n)
/-- The low five bits of a word as a number. -/
def low5 (a : Word) : Nat := a.toNat % 32
/-- The number fits 32 signed bits. -/
abbrev fits (v : Int) : Prop := -2 ^ 31 ≤ v ∧ v < 2 ^ 31
/-- Byte `j` of a word, counted from the least significant. -/
def regByte (w : Word) (j : Nat) : Byte := BitVec.ofNat 8 (w.toNat / 256 ^ j)

/-! ### Scalar instructions -/

/-- Instructions with three 5-bit operand fields. -/
abbrev Form3 := BitVec 5 → BitVec 5 → BitVec 5 → Instr

/-- Destination, first and second operand, with the value written (R123, R125 to R131, R135 to R137). -/
def threeRegister : List (Form3 × (Word → Word → Word)) :=
  [(Instr.addu, fun a b => BitVec.ofNat 32 (a.toNat + b.toNat)),
   (Instr.subu, fun a b => BitVec.ofInt 32 (a.toInt - b.toInt)),
   (Instr.and, fun a b => a &&& b),
   (Instr.or, fun a b => a ||| b),
   (Instr.xor, fun a b => a ^^^ b),
   (Instr.nor, fun a b => ~~~(a ||| b)),
   (Instr.slt, fun a b => truth (a.toInt < b.toInt)),
   (Instr.sltu, fun a b => truth (a.toNat < b.toNat)),
   (Instr.sllv, fun a b => shiftLeft a (low5 b)),
   (Instr.srlv, fun a b => shiftRight a (low5 b)),
   (Instr.srav, fun a b => shiftArith a (low5 b))]

/-- Instructions with a destination, a source register and an immediate, with the value written (R139 to
R144). -/
def immediates : List ((Reg → Reg → BitVec 16 → Instr) × (Word → BitVec 16 → Word)) :=
  [(Instr.addiu, fun a i => BitVec.ofInt 32 (a.toInt + i.toInt)),
   (Instr.slti, fun a i => truth (a.toInt < i.toInt)),
   (Instr.sltiu, fun a i => truth (a.toNat < (BitVec.ofInt 32 i.toInt).toNat)),
   (Instr.andi, fun a i => a &&& BitVec.ofNat 32 i.toNat),
   (Instr.ori, fun a i => a ||| BitVec.ofNat 32 i.toNat),
   (Instr.xori, fun a i => a ^^^ BitVec.ofNat 32 i.toNat)]

/-- Instructions with a data register, an offset and a base register. -/
abbrev FormMem := Reg → BitVec 16 → Reg → Instr

/-- The scalar loads with their size in bytes, and whether they sign-extend (R163 to R167). -/
def scalarLoads : List (FormMem × Nat × Bool) :=
  [(Instr.lb, 1, true), (Instr.lbu, 1, false), (Instr.lh, 2, true), (Instr.lhu, 2, false),
   (Instr.lw, 4, true)]

/-- The scalar stores with their size in bytes (R170 to R172). -/
def scalarStores : List (FormMem × Nat) := [(Instr.sb, 1), (Instr.sh, 2), (Instr.sw, 4)]

/-- The value of `n` bytes at `a` widened to 32 bits (R66). -/
def loaded (s : State) (a : Word) (n : Nat) (signed : Bool) : Word :=
  BitVec.ofInt 32 (if signed then signedAt s a n else (unsignedAt s a n : Int))

/-- How many bytes an unaligned access moves: up from `a` to the end of its word, or down from `a` to the
start of its word (R168, R169). -/
def partialCount (up : Bool) (a : Word) : Nat := if up then 4 - a.toNat % 4 else a.toNat % 4 + 1
/-- The address of byte `j` of an unaligned access. -/
def partialAddr (up : Bool) (a : Word) (j : Nat) : Word :=
  if up then byteAddr a j else a - BitVec.ofNat 32 j
/-- The lowest address of an unaligned access. -/
def partialStart (up : Bool) (a : Word) : Word :=
  if up then a else a - BitVec.ofNat 32 (a.toNat % 4)
/-- The register byte that byte `j` of an unaligned access stands in: the left forms begin at the most
significant byte, the right forms at the least significant. -/
def partialByte (left : Bool) (j : Nat) : Nat := if left then 3 - j else j

/-- A scalar memory instruction: the kind of its access, where it starts and how many bytes it has, from the
byte order (true for big-endian) and the effective address, and the alignment it needs. -/
structure ScalarForm where
  form : FormMem
  kind : AccessKind
  start : Bool → Word → Word
  size : Bool → Word → Nat
  align : Nat

/-- An aligned access of `n` bytes at the effective address. -/
def plain (form : FormMem) (kind : AccessKind) (n : Nat) : ScalarForm :=
  ⟨form, kind, fun _ a => a, fun _ _ => n, n⟩

/-- The scalar memory instructions but SC. LWL and LWR access the whole word that holds the effective
address, SWL and SWR the bytes they change (R168, R169, R173, R174; log entry 36). -/
def scalarMemory : List ScalarForm :=
  [plain Instr.lb .read 1, plain Instr.lbu .read 1, plain Instr.lh .read 2, plain Instr.lhu .read 2,
   plain Instr.lw .read 4, plain Instr.ll .read 4, plain Instr.sb .write 1, plain Instr.sh .write 2,
   plain Instr.sw .write 4,
   ⟨Instr.lwl, .read, fun _ a => a - BitVec.ofNat 32 (a.toNat % 4), fun _ _ => 4, 1⟩,
   ⟨Instr.lwr, .read, fun _ a => a - BitVec.ofNat 32 (a.toNat % 4), fun _ _ => 4, 1⟩,
   ⟨Instr.swl, .write, fun be => partialStart be, fun be => partialCount be, 1⟩,
   ⟨Instr.swr, .write, fun be => partialStart !be, fun be => partialCount !be, 1⟩]

/-- The access of a scalar memory instruction at the effective address `a`. -/
def ScalarForm.access (m : ScalarForm) (s : State) (a : Word) : Access :=
  ⟨.scalar, m.kind, m.start s.params.bigEndian a, m.size s.params.bigEndian a, []⟩

/-- An SC at `a` surely stores: it follows a clean LL on the same address (R176). -/
def storesForSure (s : State) (a : Word) : Prop := s.llBit = true ∧ s.llClean = true ∧ s.llAddr = a

/-- The conditional branches: the condition on `rs` and `rt` (the one-register forms ignore `rt`), and
whether they link (R183 to R190). -/
def branches : List ((Reg → Reg → BitVec 16 → Instr) × (Int → Int → Bool) × Bool) :=
  [(Instr.beq, fun a b => a = b, false),
   (Instr.bne, fun a b => a ≠ b, false),
   (fun rs _ o => .blez rs o, fun a _ => a ≤ 0, false),
   (fun rs _ o => .bgtz rs o, fun a _ => 0 < a, false),
   (fun rs _ o => .bltz rs o, fun a _ => a < 0, false),
   (fun rs _ o => .bgez rs o, fun a _ => 0 ≤ a, false),
   (fun rs _ o => .bltzal rs o, fun a _ => a < 0, true),
   (fun rs _ o => .bgezal rs o, fun a _ => 0 ≤ a, true)]

/-- The likely branches (R192 to R199). -/
def likelyBranches : List ((Reg → Reg → BitVec 16 → Instr) × (Int → Int → Bool) × Bool) :=
  [(Instr.beql, fun a b => a = b, false),
   (Instr.bnel, fun a b => a ≠ b, false),
   (fun rs _ o => .blezl rs o, fun a _ => a ≤ 0, false),
   (fun rs _ o => .bgtzl rs o, fun a _ => 0 < a, false),
   (fun rs _ o => .bltzl rs o, fun a _ => a < 0, false),
   (fun rs _ o => .bgezl rs o, fun a _ => 0 ≤ a, false),
   (fun rs _ o => .bltzall rs o, fun a _ => a < 0, true),
   (fun rs _ o => .bgezall rs o, fun a _ => 0 ≤ a, true)]

/-- The target of a conditional branch: the address of its delay slot plus four times the signed offset
(R178). -/
def branchDest (s : State) (o : BitVec 16) : Word := s.pc + 4#32 + BitVec.ofInt 32 (4 * o.toInt)

/-- The target of J and JAL: the upper four bits of the address of the delay slot, the target field, two
zero bits (R179). -/
def jumpDest (s : State) (t : BitVec 26) : Word :=
  BitVec.ofNat 32 ((s.pc + 4#32).toNat / 2 ^ 28 * 2 ^ 28 + 4 * t.toNat)

/-- The jumps and branches. -/
def isJump : Instr → Bool
  | .j _ | .jal _ | .jr _ | .jalr _ _ => true
  | .beq _ _ _ | .bne _ _ _ | .blez _ _ | .bgtz _ _ | .bltz _ _ | .bgez _ _ | .bltzal _ _
  | .bgezal _ _ => true
  | .beql _ _ _ | .bnel _ _ _ | .blezl _ _ | .bgtzl _ _ | .bltzl _ _ | .bgezl _ _ | .bltzall _ _
  | .bgezall _ _ => true
  | _ => false

/-- A branch of coprocessor 1, which branches on a machine with a floating-point unit (R225). -/
def isBc1 : Instr → Bool
  | .cop1 f => f.extractLsb' 21 5 == 0b01000#5
  | _ => false

/-- The words of MFC1, CFC1, MTC1 and CTC1, selected by `op` (R221 to R224). -/
def moveWord (op : BitVec 5) (rt rd : Reg) : Instr := .cop1 (op ++ rt ++ rd ++ 0#11)

/-- The words of BC1F, BC1T, BC1FL and BC1TL, selected by `k` (R225). -/
def branchWord (k : BitVec 5) (o : BitVec 16) : Instr := .cop1 (0b01000#5 ++ k ++ o)

/-- The register traps with their conditions (R201 to R206). -/
def registerTraps : List ((Reg → Reg → BitVec 10 → Instr) × (Word → Word → Bool)) :=
  [(Instr.tge, fun a b => b.toInt ≤ a.toInt), (Instr.tgeu, fun a b => b.toNat ≤ a.toNat),
   (Instr.tlt, fun a b => a.toInt < b.toInt), (Instr.tltu, fun a b => a.toNat < b.toNat),
   (Instr.teq, fun a b => a.toNat = b.toNat), (Instr.tne, fun a b => a.toNat ≠ b.toNat)]

/-- The immediate traps with their conditions on the register and the sign-extended immediate (R207 to
R212). -/
def immediateTraps : List ((Reg → BitVec 16 → Instr) × (Word → Word → Bool)) :=
  [(Instr.tgei, fun a b => b.toInt ≤ a.toInt), (Instr.tgeiu, fun a b => b.toNat ≤ a.toNat),
   (Instr.tlti, fun a b => a.toInt < b.toInt), (Instr.tltiu, fun a b => a.toNat < b.toNat),
   (Instr.teqi, fun a b => a.toNat = b.toNat), (Instr.tnei, fun a b => a.toNat ≠ b.toNat)]

/-- A conditional trap does nothing when its condition fails, and raises `Trap` when it holds (R200). -/
def trapsIff (i : Instr) (s : State) (c : Bool) : Prop :=
  (c = false → ∃ t, exec i s = .next t ∧ Frame {} s t ∧ goesOn s t) ∧ (c = true → traps i s .trap)

/-! ### Vector instructions -/

/-- The operand forms of R114. -/
inductive Form where
  | vv
  | vs
  | sv

/-- The two operands of element `e`, from the two operand fields in assembly order (R301). -/
def Form.operands (f : Form) (s : State) (x y : BitVec 5) (e : Elem) : Word × Word :=
  match f with
  | .vv => (s.elem x e, s.elem y e)
  | .vs => (s.elem x e, s.reg y)
  | .sv => (s.reg x, s.elem y e)

/-- The unfinished loads that the first, and the second, operand of element `e` comes from (R75). -/
def Form.waits (f : Form) (s : State) (x y : BitVec 5) (e : Elem) : List Nat × List Nat :=
  match f with
  | .vv => (s.waitsOf x e, s.waitsOf y e)
  | .vs => (s.waitsOf x e, [])
  | .sv => ([], s.waitsOf y e)

/-- The unfinished loads that both operands of element `e` come from. -/
def Form.allWaits (f : Form) (s : State) (x y : BitVec 5) (e : Elem) : List Nat :=
  (f.waits s x y e).1 ++ (f.waits s x y e).2

/-- The vector instructions that only write a vector register, with the value of an element (R302 to R309,
R312, R313, R317 to R328, R341 to R348). -/
def vectorResults : List (Form3 × Form × (Word → Word → Word)) :=
  [(Instr.andVv, .vv, fun a b => a &&& b), (Instr.andVs, .vs, fun a b => a &&& b),
   (Instr.orVv, .vv, fun a b => a ||| b), (Instr.orVs, .vs, fun a b => a ||| b),
   (Instr.xorVv, .vv, fun a b => a ^^^ b), (Instr.xorVs, .vs, fun a b => a ^^^ b),
   (Instr.norVv, .vv, fun a b => ~~~(a ||| b)), (Instr.norVs, .vs, fun a b => ~~~(a ||| b)),
   (Instr.adduVv, .vv, fun a b => BitVec.ofNat 32 (a.toNat + b.toNat)),
   (Instr.adduVs, .vs, fun a b => BitVec.ofNat 32 (a.toNat + b.toNat)),
   (Instr.subuVv, .vv, fun a b => BitVec.ofInt 32 (a.toInt - b.toInt)),
   (Instr.subuVs, .vs, fun a b => BitVec.ofInt 32 (a.toInt - b.toInt)),
   (Instr.subuSv, .sv, fun a b => BitVec.ofInt 32 (a.toInt - b.toInt)),
   (Instr.sllvVv, .vv, fun a b => shiftLeft a (low5 b)),
   (Instr.sllvVs, .vs, fun a b => shiftLeft a (low5 b)),
   (Instr.sllvSv, .sv, fun a b => shiftLeft a (low5 b)),
   (Instr.srlvVv, .vv, fun a b => shiftRight a (low5 b)),
   (Instr.srlvVs, .vs, fun a b => shiftRight a (low5 b)),
   (Instr.srlvSv, .sv, fun a b => shiftRight a (low5 b)),
   (Instr.sravVv, .vv, fun a b => shiftArith a (low5 b)),
   (Instr.sravVs, .vs, fun a b => shiftArith a (low5 b)),
   (Instr.sravSv, .sv, fun a b => shiftArith a (low5 b)),
   (Instr.sltVv, .vv, fun a b => truth (a.toInt < b.toInt)),
   (Instr.sltVs, .vs, fun a b => truth (a.toInt < b.toInt)),
   (Instr.sltSv, .sv, fun a b => truth (a.toInt < b.toInt)),
   (Instr.sltuVv, .vv, fun a b => truth (a.toNat < b.toNat)),
   (Instr.sltuVs, .vs, fun a b => truth (a.toNat < b.toNat)),
   (Instr.sltuSv, .sv, fun a b => truth (a.toNat < b.toNat)),
   (Instr.seqVv, .vv, fun a b => truth (a = b)), (Instr.seqVs, .vs, fun a b => truth (a = b))]

/-- The vector instructions that record overflow, with the exact signed result (R310, R311, R314 to
R316). -/
def overflowing : List (Form3 × Form × (Int → Int → Int)) :=
  [(Instr.addVv, .vv, fun a b => a + b), (Instr.addVs, .vs, fun a b => a + b),
   (Instr.subVv, .vv, fun a b => a - b), (Instr.subVs, .vs, fun a b => a - b),
   (Instr.subSv, .sv, fun a b => a - b)]

/-- The flag instructions with their comparisons (R349 to R356). -/
def flagging : List ((BitVec 5 → BitVec 5 → Instr) × Form × (Word → Word → Bool)) :=
  [(Instr.fltVv, .vv, fun a b => a.toInt < b.toInt), (Instr.fltVs, .vs, fun a b => a.toInt < b.toInt),
   (Instr.fltSv, .sv, fun a b => a.toInt < b.toInt),
   (Instr.fltuVv, .vv, fun a b => a.toNat < b.toNat), (Instr.fltuVs, .vs, fun a b => a.toNat < b.toNat),
   (Instr.fltuSv, .sv, fun a b => a.toNat < b.toNat),
   (Instr.feqVv, .vv, fun a b => a = b), (Instr.feqVs, .vs, fun a b => a = b)]

/-- The conditional moves with their conditions (R358 to R369). -/
def moving : List (Form3 × Form × (Int → Bool)) :=
  [(Instr.cmvnezVv, .vv, fun a => a ≠ 0), (Instr.cmvnezVs, .vs, fun a => a ≠ 0),
   (Instr.cmvgezVv, .vv, fun a => 0 ≤ a), (Instr.cmvgezVs, .vs, fun a => 0 ≤ a),
   (Instr.cmvlezVv, .vv, fun a => a ≤ 0), (Instr.cmvlezVs, .vs, fun a => a ≤ 0),
   (Instr.cmveqzVv, .vv, fun a => a = 0), (Instr.cmveqzVs, .vs, fun a => a = 0),
   (Instr.cmvltzVv, .vv, fun a => a < 0), (Instr.cmvltzVs, .vs, fun a => a < 0),
   (Instr.cmvgtzVv, .vv, fun a => 0 < a), (Instr.cmvgtzVs, .vs, fun a => 0 < a)]

/-- The strided and the indexed address forms (R261). -/
inductive AddrForm where
  | strided
  | indexed

/-- The element addresses of the form. -/
def AddrForm.addrs (f : AddrForm) (s : State) (x y : BitVec 5) : Addrs :=
  match f with
  | .strided => s.strideAddrs x y
  | .indexed => s.indexAddrs x y

/-- The unfinished loads that the address of element `e` comes from: those of the index (R75). -/
def AddrForm.waits (f : AddrForm) (s : State) (y : BitVec 5) (e : Elem) : List Nat :=
  match f with
  | .strided => []
  | .indexed => s.waitsOf y e

/-- The unit-stride loads: element size, and whether they sign-extend (R265 to R269). -/
def unitLoads : List (Form3 × Nat × Bool) :=
  [(Instr.lbaiV, 1, true), (Instr.lhaiV, 2, true), (Instr.lwaiV, 4, true), (Instr.lbuaiV, 1, false),
   (Instr.lhuaiV, 2, false)]

/-- The unit-stride stores (R280 to R282). -/
def unitStores : List (Form3 × Nat) := [(Instr.sbaiV, 1), (Instr.shaiV, 2), (Instr.swaiV, 4)]

/-- The indexed and strided loads (R270 to R279). -/
def addressedLoads : List (Form3 × AddrForm × Nat × Bool) :=
  [(Instr.lbxV, .indexed, 1, true), (Instr.lhxV, .indexed, 2, true), (Instr.lwxV, .indexed, 4, true),
   (Instr.lbuxV, .indexed, 1, false), (Instr.lhuxV, .indexed, 2, false),
   (Instr.lbstV, .strided, 1, true), (Instr.lhstV, .strided, 2, true), (Instr.lwstV, .strided, 4, true),
   (Instr.lbustV, .strided, 1, false), (Instr.lhustV, .strided, 2, false)]

/-- The indexed and strided stores (R283 to R288). -/
def addressedStores : List (Form3 × AddrForm × Nat) :=
  [(Instr.sbxV, .indexed, 1), (Instr.shxV, .indexed, 2), (Instr.swxV, .indexed, 4),
   (Instr.sbstV, .strided, 1), (Instr.shstV, .strided, 2), (Instr.swstV, .strided, 4)]

/-- Every element address of the instruction is a multiple of the element size (R67). -/
def aligned (s : State) (addrs : Addrs) (size : Nat) : Prop :=
  ∀ e : Elem, e.val < s.vlr.toNat → (addrs e).toNat % size = 0

/-- At the address of every element stands the value of an element stored there: of that element itself
when no other one has its address (R70, R263). -/
def storedElems (s t : State) (vd : VReg) (addrs : Addrs) (size : Nat) : Prop :=
  ∀ e : Elem, e.val < s.vlr.toNat → ∃ j : Elem, j.val < s.vlr.toNat ∧ addrs j = addrs e ∧
    ∀ k, k < size → t.byte (byteAddr (addrs e) k) = storedByte s size (s.elem vd j) k

/-- Every access of a vector instruction can be made in its own right, and that of element `e` is the
first that races (R74). -/
def racesFirstAt (s : State) (kind : AccessKind) (addrs : Addrs) (size : Nat) (after : Waits) (e : Elem) :
    Prop :=
  s.params.needsSync = true ∧ e.val < s.vlr.toNat ∧
  (∀ j : Elem, j.val < s.vlr.toNat → Params.firstUnbacked s.params (addrs j) size = none) ∧
  racing s ⟨.vector, kind, addrs e, size, after e⟩ ∧
  ∀ j : Elem, j.val < e.val → ¬racing s ⟨.vector, kind, addrs j, size, after j⟩

/-- The instruction reads vlr: a coprocessor 2 operate instruction other than VINS.S and VEXT.S, whose
format is 10001 (R15, R98, R434). -/
def readsVlr (i : Instr) : Prop :=
  opOf (encode i) = 18#6 ∧ 16 ≤ (rsOf (encode i)).toNat ∧ rsOf (encode i) ≠ 0b10001#5

/-- A coprocessor 2 instruction: major opcode COP2, LWC2, LDC2, SWC2 or SDC2 (R44, R235). -/
def usesCop2 (i : Instr) : Prop := opOf (encode i) ∈ [18#6, 50#6, 54#6, 58#6, 62#6]

/-! ### Fixed point -/

/-- The three fixed-point operations. -/
inductive Fx where
  | add
  | sub
  | mul

/-- The fixed-point instructions (R386 to R394): `vw`, the two operands, the configuration register. -/
def fixed : List ((BitVec 5 → BitVec 5 → BitVec 5 → BitVec 5 → Instr) × Form × Fx) :=
  [(Instr.fxaddVv, .vv, .add), (Instr.fxaddVs, .vs, .add), (Instr.fxaddSv, .sv, .add),
   (Instr.fxsubVv, .vv, .sub), (Instr.fxsubVs, .vs, .sub), (Instr.fxsubSv, .sv, .sub),
   (Instr.fxmulVv, .vv, .mul), (Instr.fxmulVs, .vs, .mul), (Instr.fxmulSv, .sv, .mul)]

/-- `sham`, the low five bits of the configuration word (R381). -/
def sham (c : Word) : Nat := c.toNat % 32

/-- The 1/2 LSB round bit: absent when `shlnr` is set or `sham` is 0 (R383, R392). -/
def half (c : Word) : Int := if c.getLsbD 9 = false ∧ 0 < sham c then 2 ^ (sham c - 1) else 0

/-- The 33-bit value before the right shift (R386, R389, R392). The left shifter keeps 32 bits (R383); the
multiplier takes the low halves as signed numbers. -/
def fxExact (k : Fx) (c a b : Word) : Int :=
  match k with
  | .add => (a.toInt * 2 ^ sham c + half c).bmod (2 ^ 32) + b.toInt
  | .sub => (a.toInt * 2 ^ sham c + half c).bmod (2 ^ 32) - b.toInt
  | .mul => a.toInt.bmod (2 ^ 16) * b.toInt.bmod (2 ^ 16) + half c

/-- The right shift with the sticky-bit adjustment (R384): `shrnr` is bit 10, `shrst` bit 11. -/
def fxRounded (c : Word) (v : Int) : Int :=
  let q := v / 2 ^ sham c
  let lost := v % 2 ^ sham c ≠ 0
  if c.getLsbD 10 then q
  else if c.getLsbD 11 then (if lost then q - q % 2 + 1 else q)
  else if sham c ≠ 0 ∧ ¬lost then q - q % 2 else q

/-- The width the clipper keeps: `clipam` is bits 8:7 (R385). -/
def fxWidth (c : Word) : Nat :=
  match c.toNat / 128 % 4 with
  | 0 => 32
  | 1 => 8
  | _ => 16

/-- Clipping to `w` signed bits (R385). -/
def clip (w : Nat) (v : Int) : Int := max (-2 ^ (w - 1)) (min v (2 ^ (w - 1) - 1))

/-- An architecturally valid configuration word: unused bits zero, `clipam` not 11 (R381, R385). -/
def fxValid (c : Word) : Prop :=
  c.toNat / 2 ^ 12 = 0 ∧ c.toNat / 32 % 4 = 0 ∧ c.toNat / 128 % 4 ≠ 3

/-- The architectural result of a fixed-point instruction (R382): the clipped value in every element, and
a vsat bit set where clipping changed the value. -/
def fxResult (s t : State) (k : Fx) (vw : VReg) (ops : Elem → Word × Word) (c : Word) : Prop :=
  let v := fun e => fxRounded c (fxExact k c (ops e).1 (ops e).2)
  elemsAre s t vw (fun e => BitVec.ofInt 32 (clip (fxWidth c) (v e))) ∧
  ∀ e : Elem, t.vsat.getLsbD e.val =
    (s.vsat.getLsbD e.val || decide (e.val < s.vlr.toNat ∧ clip (fxWidth c) (v e) ≠ v e))

/-! ### The T0 pipelines, in integers (file 48) -/

/-- A field of a configuration word whose bits stand at the given places, lowest first (R401). -/
def field {n : Nat} (c : Word) (places : Vector (Fin 32) n) : Nat :=
  ((List.finRange n).map fun i => if c.getLsbD places[i].val then 2 ^ i.val else 0).sum

/-- A one-bit field. -/
def flag (c : Word) (place : Fin 32) : Bool := c.getLsbD place.val

/-- Table 10: the logic unit for each value of lufunc (R403). -/
def logicTable : List (Word → Word → Word) :=
  [fun _ b => b, fun a b => b ||| ~~~a, fun a b => a &&& b, fun a b => ~~~(a ^^^ b), fun a b => a ||| b,
   fun _ _ => BitVec.allOnes 32, fun a _ => a, fun a b => a ||| ~~~b, fun a b => b &&& ~~~a,
   fun a _ => ~~~a, fun _ _ => 0#32, fun a b => ~~~(a ||| b), fun a b => a ^^^ b, fun a b => ~~~(a &&& b),
   fun a b => a &&& ~~~b, fun _ b => ~~~b]

/-- LUOUT (R403). -/
def luOut (l : T0Layout) (c a b : Word) : Word :=
  ((logicTable[field c l.lufunc]?).map fun f => f a b).getD 0#32

/-- A word, or its low half, as an unsigned or a signed number (R405, R413). -/
def number (unsignedSide : Bool) (w : Word) : Int := if unsignedSide then (w.toNat : Int) else w.toInt
/-- The low half of a word as a number. -/
def halfNumber (unsignedSide : Bool) (w : Word) : Int :=
  if unsignedSide then ((w.toNat % 2 ^ 16 : Nat) : Int) else w.toInt.bmod (2 ^ 16)

/-- SHLOUT, the left shifter with its round bit (R404). -/
def shlOut (l : T0Layout) (c a b : Word) : Word :=
  let n := if flag c l.shlv then low5 (luOut l c a b) else sham c
  let x := if flag c l.shlza then 0#32 else a
  BitVec.ofInt 32 (x.toInt * 2 ^ n + if c.getLsbD 9 = false ∧ 0 < n then 2 ^ (n - 1) else 0)

/-- ADDB as a number (R405). -/
def addB (l : T0Layout) (c a b : Word) : Int := number (flag c l.bu) (luOut l c a b)

/-- ADDOUT as a signed 33-bit number (R405, R414). -/
def addOut (k : Fx) (l : T0Layout) (c a b : Word) : Int :=
  let x := number (flag c l.au) (shlOut l c a b)
  let alone := flag c l.shlv || flag c l.shrv
  match k with
  | .add => if alone then x else (x + addB l c a b).bmod (2 ^ 33)
  | .sub => if alone then x else (x - addB l c a b).bmod (2 ^ 33)
  | .mul => (halfNumber (flag c l.au) a * halfNumber (flag c l.bu) b + half c).bmod (2 ^ 33)

/-- SHROUT as a signed 33-bit number (R406, R415): jammed when `shrst` (bit 11) is set, else corrected to
even, unless `shrnr` (bit 10) is set; a constant shift by zero places is never corrected. -/
def shrOut (l : T0Layout) (c : Word) (v : Int) (lu : Word) : Int :=
  let n := if flag c l.shrv then low5 lu else if flag c l.sepsham then field c l.shram else sham c
  let q := if flag c l.shrl then (v % 2 ^ 33 / 2 ^ n).bmod (2 ^ 33) else v / 2 ^ n
  let lost := v % 2 ^ n ≠ 0
  if c.getLsbD 10 then q
  else if c.getLsbD 11 then (if lost then q - q % 2 + 1 else q)
  else if (flag c l.shrv = true ∨ n ≠ 0) ∧ ¬lost then q - q % 2 else q

/-- CLIPOUT and FLAG (R407 to R409): with noclip clear the clipper, with `clipam` 11 as 16 bits; with noclip
set the four functions of Table 12. -/
def clipOut (l : T0Layout) (c : Word) (v w : Int) : Word × Bool :=
  if flag c l.noclip then
    match c.toNat / 128 % 4 with
    | 0 => (BitVec.ofInt 32 w, false)
    | 1 => (BitVec.ofInt 32 w, ¬fits w)
    | 2 => (truth (w < 0), w < 0)
    | _ => (truth (v = 0), v = 0)
  else (BitVec.ofInt 32 (clip (fxWidth c) w), clip (fxWidth c) w ≠ w)

/-- Table 13: whether the element is written, from ADDOUT (R412). -/
def writesElem (l : T0Layout) (c : Word) (v : Int) : Bool :=
  match field c l.wcond with
  | 0 => true
  | 1 => v ≠ 0
  | 2 => 0 ≤ v
  | 3 => v ≤ 0
  | 4 => false
  | 5 => v = 0
  | 6 => v < 0
  | _ => 0 < v

/-- CLIPOUT, FLAG and the write enable of one element with the operands `ab` (R402 to R416). -/
def t0Elem (k : Fx) (l : T0Layout) (c : Word) (ab : Word × Word) : (Word × Bool) × Bool :=
  let v := addOut k l c ab.1 ab.2
  let w := if flag c l.lures then addB l c ab.1 ab.2 else shrOut l c v (luOut l c ab.1 ab.2)
  (clipOut l c v w, writesElem l c v)

/-- The result of a fixed-point instruction on T0: an element is written where the write is enabled; FLAG
is ORed into the vsat bit of an enabled element, and may be of a suppressed one (R411, log entry 30). -/
def t0Result (s t : State) (k : Fx) (l : T0Layout) (vw : VReg) (ops : Elem → Word × Word) (c : Word) :
    Prop :=
  let r := fun e => t0Elem k l c (ops e)
  elemsAre s t vw (fun e => if (r e).2 then (r e).1.1 else s.elem vw e) ∧
  ∀ e : Elem,
    (s.vlr.toNat ≤ e.val ∨ (r e).1.2 = false → t.vsat.getLsbD e.val = s.vsat.getLsbD e.val) ∧
    (e.val < s.vlr.toNat → (r e).2 = true → (r e).1.2 = true → t.vsat.getLsbD e.val = true) ∧
    (s.vsat.getLsbD e.val = true → t.vsat.getLsbD e.val = true)

/-- The values of lufunc with which LUOUT does not depend on A: B, all ones, 0 and ~B (R403). -/
def luSkipsA : List Nat := [0, 5, 10, 15]
/-- The values of lufunc with which LUOUT does not depend on B: all ones, A, ~A and 0 (R403). -/
def luSkipsB : List Nat := [5, 6, 9, 10]

/-- Whether A, and B, decides the write of an element (R404, R405, R412, R414): neither under wcond 000 and
100; both in the multiplier; else A through the left shifter unless shlza is set, and each through LUOUT
when that is the shift amount (shlv set) or the second adder input (shrv and shlv clear). -/
def decides (k : Fx) (l : T0Layout) (c : Word) : Prop × Prop :=
  let wcond := field c l.wcond
  let lu := flag c l.shlv = true ∨ flag c l.shrv = false
  match k with
  | .mul => (wcond ∉ [0, 4], wcond ∉ [0, 4])
  | _ => (wcond ∉ [0, 4] ∧ (flag c l.shlza = false ∨ (lu ∧ field c l.lufunc ∉ luSkipsA)),
      wcond ∉ [0, 4] ∧ lu ∧ field c l.lufunc ∉ luSkipsB)

/-- A bit of the configuration word that is neither architectural nor in a T0-only field is set (R401). -/
def strayBit (l : T0Layout) (c : Word) : Prop :=
  ∃ p : Fin 32, c.getLsbD p.val = true ∧ (12 ≤ p.val ∨ p.val = 5 ∨ p.val = 6) ∧ p ∉ layoutPositions l

/-- A field that must be zero in the multiply pipeline is set (R417). -/
def mulStops (l : T0Layout) (c : Word) : Prop :=
  flag c l.shlza = true ∨ flag c l.shlv = true ∨ flag c l.shrv = true ∨ flag c l.lures = true

/-! ### Flags -/

/-- The instructions that can set vovf bits (R39). -/
def setsVovf : Instr → Bool
  | .addVv _ _ _ | .addVs _ _ _ | .subVv _ _ _ | .subVs _ _ _ | .subSv _ _ _ => true
  | _ => false

/-- The instructions that can set vsat bits (R41). -/
def setsVsat : Instr → Bool
  | .fxaddVv _ _ _ _ | .fxaddVs _ _ _ _ | .fxaddSv _ _ _ _ | .fxsubVv _ _ _ _ | .fxsubVs _ _ _ _
  | .fxsubSv _ _ _ _ | .fxmulVv _ _ _ _ | .fxmulVs _ _ _ _ | .fxmulSv _ _ _ _ => true
  | _ => false

/-- The conditional flag instructions (R37). -/
def setsVcond : Instr → Bool
  | .fltVv _ _ | .fltVs _ _ | .fltSv _ _ | .fltuVv _ _ | .fltuVs _ _ | .fltuSv _ _ | .feqVv _ _
  | .feqVs _ _ => true
  | _ => false

end Sys2Proof.Claims

section

open Sys2Proof Sys2Proof.Machine Sys2Proof.Safety Sys2Proof.Claims

/-! ### Encoding -/

/-- Decoding the word of an instruction gives it back, for every instruction and every operand value. -/
def Obligations.DecodeEncode : Prop := ∀ i : Instr, decode (encode i) = .instr i

/-- Every word that decodes to an instruction is that instruction's one word: no bit of a word is
dropped, and no instruction has two words. -/
def Obligations.EncodeDecode : Prop := ∀ (w : Word) (i : Instr), decode w = .instr i → encode i = w

/-- R113: a COP2 word is reserved or exactly one instruction. -/
def Obligations.Cop2WordsAreOneInstructionOrReserved : Prop :=
  ∀ w : Word, opOf w = 0b010010#6 →
    decode w = .reserved ∨ ∃ i, decode w = .instr i ∧ ∀ j, encode j = w → j = i

/-- R93 to R95: the reserved major opcodes, SPECIAL functions and REGIMM selectors. -/
def Obligations.ReservedScalarWords : Prop :=
  ∀ w : Word,
    ((opOf w).toNat ∈ [24, 25, 26, 27, 28, 29, 30, 31, 39, 44, 45, 47, 52, 55, 60, 63] →
      decode w = .reserved) ∧
    (opOf w = 0#6 → (functOf w).toNat ∈ [1, 5, 10, 11, 14, 20, 21, 22, 23, 28, 29, 30, 31, 40, 41, 44, 45,
        46, 47, 53, 55, 56, 57, 58, 59, 60, 61, 62, 63] → decode w = .reserved) ∧
    (opOf w = 1#6 → (rtOf w).toNat ∉ [0, 1, 2, 3, 8, 9, 10, 11, 12, 14, 16, 17, 18, 19] →
      decode w = .reserved)

/-- R100: the reserved formats of the vector unit. -/
def Obligations.ReservedVectorFormats : Prop :=
  ∀ w : Word, opOf w = 0b010010#6 → rsOf w ∈ [0b10110#5, 0b10111#5, 0b11110#5, 0b11111#5] →
    decode w = .reserved ∧ ∀ i : Instr, encode i ≠ w

/-- A few words written out from the encoding tables, one for each family. -/
def Obligations.SampleWordsDecode : Prop :=
  decode 0b000000_00010_00011_00001_00000_100000#32 = .instr (.add 1#5 2#5 3#5) ∧
  decode 0b100011_00101_00100_1111111111111000#32 = .instr (.lw 4#5 0xFFF8#16 5#5) ∧
  decode 0b000100_00001_00010_0000000000000011#32 = .instr (.beq 1#5 2#5 3#16) ∧
  decode 0b010010_00110_00100_00010_00000000000#32 = .instr (.ctvu 4#5 2#5) ∧
  decode 0b010010_10001_00111_00110_0_10011_00101#32 = .instr (.vinsS 7#5 5#5 6#5) ∧
  decode 0b010010_10011_00111_00110_0_00011_00101#32 = .instr (.lwaiV 5#5 6#5 7#5) ∧
  decode 0b010010_10101_00111_00000_1_00110_00101#32 = .instr (.subSv 6#5 7#5 5#5) ∧
  decode 0b010010_10100_00111_00100_0_00000_00101#32 = .instr (.fltVv 5#5 7#5) ∧
  decode 0b010010_11101_00111_01000_1_00110_00101#32 = .instr (.fxmulSv 6#5 7#5 5#5 8#5)

/-! ### The machine -/

/-- The machine after reset: the invariant, the entry address (R49), and the hardwired registers. -/
def Obligations.ResetState : Prop :=
  ∀ (p : Params) (entry : Word), let s := State.resetWith p entry
    Inv s ∧ s.pc = entry ∧ s.npc = entry + 4#32 ∧ s.reg 0#5 = 0#32 ∧
    (∀ e, s.elem 0#5 e = 0#32) ∧ s.trap = none

/-- Every step keeps the invariant, from every state that has it, and keeps the open parameters and CU2 from
every state (R11, R44). That the loads an element waits for are unfinished vector loads is a clause about
the model's own record of them (log entry 16). -/
def Obligations.StepKeepsInvariant : Prop :=
  ∀ s t : State, step s = .next t → (Inv s → Inv t) ∧ t.params = s.params ∧ t.cu2 = s.cu2

/-- A step runs the instruction its bytes decode to. -/
def Obligations.StepRunsDecodedInstruction : Prop :=
  ∀ (s : State) (i : Instr), s.trap = none → s.acrossTop = false → s.pc.toNat % 4 = 0 →
    Params.firstUnbacked s.params s.pc 4 = none → s.codeModified = false →
    decodeBytes s.params.bigEndian (s.bytes s.pc 4) = .instr i → step s = exec i s

/-- The word of an instruction placed at the next fetch is the instruction the next step runs. -/
def Obligations.PlacedWordRuns : Prop :=
  ∀ (s : State) (i : Instr), Memory.wf s.mem = true →
    step (s.withFetchWord 32 (encode i).toNat) = exec i (s.withFetchWord 32 (encode i).toNat)

/-- R439 to R441: a step that takes an exception changes nothing else; epc and bd name the instruction,
or the jump or branch whose delay slot it is in; and the outcome is terminal, no handler runs. -/
def Obligations.ExceptionsAreTerminal : Prop :=
  (∀ s t : State, step s = .next t → t.trap ≠ none →
    ∃ e, t = { s with trap := some ⟨e,
      match s.slot with
      | some b => b.branch
      | none => s.pc, s.slot.isSome⟩ }) ∧
  ∀ (s : State) (o : TrapOutcome), s.trap = some o → step s = .fault (.trapped o)

/-- R22, R23: every instruction that is no jump or branch goes on to npc, and sets `acrossTop` exactly when
it runs on past `0xFFFFFFFC`, not from the delay slot of a taken jump (BC1 is in CoprocessorOneMoves). -/
def Obligations.OtherInstructionsAdvance : Prop :=
  ∀ (i : Instr) (s t : State), isJump i = false → isBc1 i = false → exec i s = .next t → t.trap = none →
    goesOn s t

/-- R44, R433: with CU2 clear every coprocessor 2 instruction raises CoprocessorUnusable(2). R106: with CU2
set, an instruction that names an absent vector register is a reserved one. -/
def Obligations.Cop2IssueChecks : Prop :=
  (∀ (i : Instr) (s : State), usesCop2 i → s.cu2 = false → traps i s (.coprocessorUnusable 2#2)) ∧
  (∀ (i : Instr) (s : State), s.cu2 = true → (∃ k ∈ i.vregs, 16 ≤ k.toNat) →
    traps i s (.reservedInstruction (encode i)))

/-- R434: a vector instruction that reads vlr raises VectorOperation when vlr exceeds 32; VEXT.V, VINS.S and
VEXT.S raise it when their index is out of range. -/
def Obligations.VectorOperationExceptions : Prop :=
  (∀ (i : Instr) (s : State), vuUsable i s → readsVlr i → 32 < s.vlr.toNat → traps i s .vectorOperation) ∧
  (∀ (vd vt : VReg) (rd : Reg) (s : State), vecReady (.vextV vd vt rd) s →
    32 < (s.vlr.toNat + (s.reg rd).toNat) % 256 → traps (.vextV vd vt rd) s .vectorOperation) ∧
  (∀ (rt : Reg) (vd : VReg) (rd : Reg) (s : State), 32 ≤ (s.reg rd).toNat % 256 →
    (vuUsable (.vinsS rt vd rd) s → traps (.vinsS rt vd rd) s .vectorOperation) ∧
    (vuUsable (.vextS rt vd rd) s → traps (.vextS rt vd rd) s .vectorOperation))

/-- R15, R27, R34: an instruction that reads vlr leaves the elements and the flag bits from vlr on as they
were; with vlr zero it also leaves memory alone. -/
def Obligations.VectorLengthBoundsEffects : Prop :=
  ∀ (i : Instr) (s t : State), readsVlr i → exec i s = .next t →
    (∀ (k : VReg) (e : Elem), s.vlr.toNat ≤ e.val → t.elem k e = s.elem k e) ∧
    (∀ n, s.vlr.toNat ≤ n → t.vcond.getLsbD n = s.vcond.getLsbD n ∧
      t.vovf.getLsbD n = s.vovf.getLsbD n ∧ t.vsat.getLsbD n = s.vsat.getLsbD n) ∧
    (s.vlr = 0#8 → ∀ a, t.byte a = s.byte a)

/-- R23, R432, R433, R437, R438, R121 and R77: what a fetch that runs no instruction does. A bus error reports
pc, as R438 item 1 writes, also where the byte at pc is backed and a later byte of the word is not (log entry
21 says how that stands to R437). -/
def Obligations.FetchOutcomes : Prop :=
  ∀ s : State, s.trap = none →
    (s.acrossTop = true → step s = .refused .sequentialWrap) ∧
    (s.acrossTop = false →
      (s.pc.toNat % 4 ≠ 0 → step s = .next (withTrap s (.addressErrorLoad s.pc))) ∧
      (s.pc.toNat % 4 = 0 → Params.firstUnbacked s.params s.pc 4 ≠ none →
        step s = .next (withTrap s (.busError s.pc))) ∧
      (s.pc.toNat % 4 = 0 → Params.firstUnbacked s.params s.pc 4 = none → s.codeModified = true →
        step s = .refused .modifiedCode) ∧
      (s.pc.toNat % 4 = 0 → Params.firstUnbacked s.params s.pc 4 = none → s.codeModified = false →
        let w := BitVec.ofNat 32 (unsignedAt s s.pc 4)
        (decode w = .reserved → opOf w = 18#6 → s.cu2 = false →
          step s = .next (withTrap s (.coprocessorUnusable 2#2))) ∧
        (decode w = .reserved → (opOf w ≠ 18#6 ∨ s.cu2 = true) →
          step s = .next (withTrap s (.reservedInstruction w))) ∧
        (∀ m, decode w = .unusedBits m → step s = .refused (.unusedFieldBits m))))

/-- R41: vsat bits are set only by the fixed-point instructions, and cleared only by CTVU. vlr changes by
CTVU only (R33). -/
def Obligations.VsatAndVlrWriters : Prop :=
  ∀ (i : Instr) (s t : State), exec i s = .next t →
    ((∀ rt, i ≠ .ctvu rt 12#5) → setsVsat i = false → t.vsat = s.vsat) ∧
    ((∀ rt, i ≠ .ctvu rt 12#5) → ∀ k, s.vsat.getLsbD k = true → t.vsat.getLsbD k = true) ∧
    ((∀ rt, i ≠ .ctvu rt 2#5) → t.vlr = s.vlr)

/-! ### Scalar computation -/

/-- ADDU, SUBU, AND, OR, XOR, NOR, SLT, SLTU, SLLV, SRLV and SRAV, and SLL, SRL and SRA, complete with their
result in the destination and change nothing else. -/
def Obligations.RegisterResults : Prop :=
  (∀ c f, (c, f) ∈ threeRegister → ∀ (rd ra rb : Reg) (s : State),
    setsReg (c rd ra rb) s rd (f (s.reg ra) (s.reg rb))) ∧
  ∀ (rd rt : Reg) (sa : BitVec 5) (s : State),
    setsReg (.sll rd rt sa) s rd (shiftLeft (s.reg rt) sa.toNat) ∧
    setsReg (.srl rd rt sa) s rd (shiftRight (s.reg rt) sa.toNat) ∧
    setsReg (.sra rd rt sa) s rd (shiftArith (s.reg rt) sa.toNat)

/-- ADD, SUB and ADDI: the exact result when it fits 32 signed bits, else IntegerOverflow and no register
written. -/
def Obligations.TrappingArithmetic : Prop :=
  ∀ (rd rs rt : Reg) (imm : BitVec 16) (s : State),
    let a := (s.reg rs).toInt
    let b := (s.reg rt).toInt
    (fits (a + b) → setsReg (.add rd rs rt) s rd (BitVec.ofInt 32 (a + b))) ∧
    (¬fits (a + b) → traps (.add rd rs rt) s .integerOverflow) ∧
    (fits (a - b) → setsReg (.sub rd rs rt) s rd (BitVec.ofInt 32 (a - b))) ∧
    (¬fits (a - b) → traps (.sub rd rs rt) s .integerOverflow) ∧
    (fits (a + imm.toInt) → setsReg (.addi rt rs imm) s rt (BitVec.ofInt 32 (a + imm.toInt))) ∧
    (¬fits (a + imm.toInt) → traps (.addi rt rs imm) s .integerOverflow)

/-- ADDIU, SLTI, SLTIU, ANDI, ORI, XORI and LUI. -/
def Obligations.ImmediateResults : Prop :=
  (∀ c f, (c, f) ∈ immediates → ∀ (rt rs : Reg) (imm : BitVec 16) (s : State),
    setsReg (c rt rs imm) s rt (f (s.reg rs) imm)) ∧
  ∀ (rt : Reg) (imm : BitVec 16) (s : State),
    setsReg (.lui rt imm) s rt (BitVec.ofNat 32 (imm.toNat * 2 ^ 16))

/-- MULT and MULTU: HI and LO hold the exact 64-bit product. DIV and DIVU: quotient truncated toward zero in
LO and remainder in HI where they are defined; where they are not, the instruction completes all the same,
with unpredictable HI and LO. After each of the four, both registers hold a result of a multiply or divide
(R151, R153). -/
def Obligations.ProductsAndQuotients : Prop :=
  ∀ (rs rt : Reg) (s : State),
    let a := s.reg rs
    let b := s.reg rt
    let fromMul := fun t : State => t.hiFromMul = true ∧ t.loFromMul = true
    (∃ t, exec (.mult rs rt) s = .next t ∧ (t.hi ++ t.lo).toInt = a.toInt * b.toInt ∧ fromMul t ∧
      Frame { hiLo := true } s t ∧ goesOn s t) ∧
    (∃ t, exec (.multu rs rt) s = .next t ∧ (t.hi ++ t.lo).toNat = a.toNat * b.toNat ∧ fromMul t ∧
      Frame { hiLo := true } s t ∧ goesOn s t) ∧
    (∃ t, exec (.div rs rt) s = .next t ∧
      (b ≠ 0#32 → ¬(a = 0x80000000#32 ∧ b = 0xFFFFFFFF#32) →
        t.lo.toInt = a.toInt.tdiv b.toInt ∧ t.hi.toInt = a.toInt.tmod b.toInt ∧ t.draws = s.draws) ∧
      fromMul t ∧ Frame { hiLo := true, draws := true } s t ∧ goesOn s t) ∧
    (∃ t, exec (.divu rs rt) s = .next t ∧
      (b ≠ 0#32 → t.lo.toNat = a.toNat / b.toNat ∧ t.hi.toNat = a.toNat % b.toNat ∧ t.draws = s.draws) ∧
      fromMul t ∧ Frame { hiLo := true, draws := true } s t ∧ goesOn s t)

/-- MFHI, MFLO, MTHI and MTLO. A move to one of HI and LO keeps the other unless that still holds a result
of a multiply or divide; after it neither holds such a result (R151, R153). -/
def Obligations.HiLoMoves : Prop :=
  ∀ (r : Reg) (s : State),
    setsReg (.mfhi r) s r s.hi ∧ setsReg (.mflo r) s r s.lo ∧
    (∃ t, exec (.mthi r) s = .next t ∧ t.hi = s.reg r ∧
      (s.loFromMul = false → t.lo = s.lo ∧ t.draws = s.draws) ∧
      t.hiFromMul = false ∧ t.loFromMul = false ∧
      Frame { hiLo := true, draws := true } s t ∧ goesOn s t) ∧
    (∃ t, exec (.mtlo r) s = .next t ∧ t.lo = s.reg r ∧
      (s.hiFromMul = false → t.hi = s.hi ∧ t.draws = s.draws) ∧
      t.hiFromMul = false ∧ t.loFromMul = false ∧
      Frame { hiLo := true, draws := true } s t ∧ goesOn s t)

/-! ### Scalar memory -/

/-- LB, LBU, LH, LHU and LW: the widened value of the bytes at the effective address. -/
def Obligations.ScalarLoadResults : Prop :=
  ∀ c n sg, (c, n, sg) ∈ scalarLoads → ∀ (rt : Reg) (o : BitVec 16) (base : Reg) (s : State),
    let a := s.effAddr base o
    a.toNat % n = 0 → accessible s (scalarAccess .read a n) →
    ∃ t, exec (c rt o base) s = .next t ∧ (rt ≠ 0#5 → t.reg rt = loaded s a n sg) ∧
      recorded s t (scalarAccess .read a n) ∧ Frame { regs := [rt], record := true } s t ∧ goesOn s t

/-- SB, SH and SW: the low bytes of the register at the effective address, and no other byte. -/
def Obligations.ScalarStoreResults : Prop :=
  ∀ c n, (c, n) ∈ scalarStores → ∀ (rt : Reg) (o : BitVec 16) (base : Reg) (s : State),
    let a := s.effAddr base o
    Memory.wf s.mem = true → a.toNat % n = 0 → accessible s (scalarAccess .write a n) →
    ∃ t, exec (c rt o base) s = .next t ∧
      (∀ k, k < n → t.byte (byteAddr a k) = storedByte s n (s.reg rt) k) ∧
      recorded s t (scalarAccess .write a n) ∧ Frame { record := true, bytes := within a n } s t ∧ goesOn s t

/-- LWL and LWR: the bytes of the word from the effective address on, in the left or right part of the
register; the rest of the register is kept. -/
def Obligations.PartialLoadResults : Prop :=
  ∀ c left, (c, left) ∈ [((Instr.lwl : FormMem), true), (Instr.lwr, false)] →
    ∀ (rt : Reg) (o : BitVec 16) (base : Reg) (s : State),
    let a := s.effAddr base o
    let up := left == s.params.bigEndian
    let whole := scalarAccess .read (a - BitVec.ofNat 32 (a.toNat % 4)) 4
    accessible s whole →
    ∃ t, exec (c rt o base) s = .next t ∧
      (rt ≠ 0#5 → ∀ j, j < 4 → regByte (t.reg rt) (partialByte left j) =
        if j < partialCount up a then s.byte (partialAddr up a j)
        else regByte (s.reg rt) (partialByte left j)) ∧
      recorded s t whole ∧ Frame { regs := [rt], record := true } s t ∧ goesOn s t

/-- SWL and SWR: the left or right bytes of the register to the bytes of the word from the effective
address on, and no other byte. -/
def Obligations.PartialStoreResults : Prop :=
  ∀ c left, (c, left) ∈ [((Instr.swl : FormMem), true), (Instr.swr, false)] →
    ∀ (rt : Reg) (o : BitVec 16) (base : Reg) (s : State),
    let a := s.effAddr base o
    let up := left == s.params.bigEndian
    let span := scalarAccess .write (partialStart up a) (partialCount up a)
    Memory.wf s.mem = true → accessible s span →
    ∃ t, exec (c rt o base) s = .next t ∧
      (∀ j, j < partialCount up a →
        t.byte (partialAddr up a j) = regByte (s.reg rt) (partialByte left j)) ∧
      recorded s t span ∧
      Frame { record := true, bytes := within (partialStart up a) (partialCount up a) } s t ∧ goesOn s t

/-- LL: loads a word and sets LLbit and LLaddr. -/
def Obligations.LoadLinkedResult : Prop :=
  ∀ (rt : Reg) (o : BitVec 16) (base : Reg) (s : State),
    let a := s.effAddr base o
    a.toNat % 4 = 0 → accessible s (scalarAccess .read a 4) →
    ∃ t, exec (.ll rt o base) s = .next t ∧ (rt ≠ 0#5 → t.reg rt = loaded s a 4 true) ∧
      t.llBit = true ∧ t.llAddr = a ∧ t.llClean = true ∧
      t.pending = s.pending ++ scalarAccess .read a 4 ∧ t.stored = s.stored ∧
      Frame { regs := [rt], link := true, record := true } s t ∧ goesOn s t

/-- SC: either stores the word and writes 1, or stores nothing and writes 0; it stores for sure after a
clean LL on the same address, and it clears LLbit. -/
def Obligations.StoreConditionalResult : Prop :=
  ∀ (rt : Reg) (o : BitVec 16) (base : Reg) (s : State),
    let a := s.effAddr base o
    Memory.wf s.mem = true → a.toNat % 4 = 0 → accessible s (scalarAccess .write a 4) →
    ∃ t ok, exec (.sc rt o base) s = .next t ∧ (storesForSure s a → ok = true ∧ t.draws = s.draws) ∧
      (rt ≠ 0#5 → t.reg rt = if ok then 1#32 else 0#32) ∧
      t.llBit = false ∧ t.llAddr = s.llAddr ∧
      (ok = true → (∀ k, k < 4 → t.byte (byteAddr a k) = storedByte s 4 (s.reg rt) k) ∧
        recorded s t (scalarAccess .write a 4)) ∧
      (ok = false → (∀ b, t.byte b = s.byte b) ∧ t.pending = s.pending ∧ t.stored = s.stored) ∧
      Frame { regs := [rt], link := true, record := true, draws := true, bytes := within a 4 } s t ∧
      goesOn s t

/-- SYNC: every earlier access has finished, so that any backed access can be made next and nothing waits
for a load; nothing else changes. -/
def Obligations.SyncResult : Prop :=
  ∀ s : State, ∃ t, exec .sync s = .next t ∧ t.pending = [] ∧ (∀ k e, t.waitsOf k e = []) ∧
    t.stored = s.stored ∧ t.llClean = s.llClean ∧ Frame { record := true, waits := true } s t ∧
    goesOn s t ∧
    ∀ new : List Access, (∀ x ∈ new, Params.firstUnbacked s.params x.addr x.size = none) → accessible t new

/-- R68, R162: a misaligned scalar access raises an address error with its address. -/
def Obligations.ScalarAddressErrors : Prop :=
  ∀ (rt : Reg) (o : BitVec 16) (base : Reg) (s : State),
    let a := s.effAddr base o
    (∀ c n, (c, n) ∈ [((Instr.lh : FormMem), 2), (Instr.lhu, 2), (Instr.lw, 4), (Instr.ll, 4)] →
      a.toNat % n ≠ 0 → traps (c rt o base) s (.addressErrorLoad a)) ∧
    (∀ c n, (c, n) ∈ [((Instr.sh : FormMem), 2), (Instr.sw, 4), (Instr.sc, 4)] →
      a.toNat % n ≠ 0 → traps (c rt o base) s (.addressErrorStore a))

/-- R437: an aligned scalar access to bytes that are not all backed raises BusError with the first such
address; LWL and LWR access the whole aligned word (log entry 36). An SC raises it when it surely stores;
otherwise it raises it, or fails and accesses nothing. -/
def Obligations.ScalarBusErrors : Prop :=
  ∀ (rt : Reg) (o : BitVec 16) (base : Reg) (s : State) (b : Word),
    let a := s.effAddr base o
    (∀ m ∈ scalarMemory, a.toNat % m.align = 0 →
      Params.firstUnbacked s.params (m.access s a).addr (m.access s a).size = some b →
      traps (m.form rt o base) s (.busError b)) ∧
    (a.toNat % 4 = 0 → Params.firstUnbacked s.params a 4 = some b →
      (storesForSure s a → traps (.sc rt o base) s (.busError b)) ∧
      (traps (.sc rt o base) s (.busError b) ∨
        ∃ t, exec (.sc rt o base) s = .next t ∧ (rt ≠ 0#5 → t.reg rt = 0#32) ∧ t.pending = s.pending ∧
          Frame { regs := [rt], link := true, record := true, draws := true } s t ∧ goesOn s t))

/-- R74, R475: an aligned and backed scalar access that shares a byte with an unfinished vector access, one
of them writing, is a race, on which the model stops (its choice, log entry 15). An SC stops there when it
surely stores. -/
def Obligations.UnsynchronisedConflictsFault : Prop :=
  ∀ (rt : Reg) (o : BitVec 16) (base : Reg) (s : State),
    let a := s.effAddr base o
    s.params.needsSync = true →
    (∀ m ∈ scalarMemory, a.toNat % m.align = 0 →
      Params.firstUnbacked s.params (m.access s a).addr (m.access s a).size = none →
      racing s (m.access s a) →
      exec (m.form rt o base) s = .fault (.memoryRace (m.access s a).addr)) ∧
    (a.toNat % 4 = 0 → Params.firstUnbacked s.params a 4 = none → storesForSure s a →
      racing s ⟨.scalar, .write, a, 4, []⟩ → exec (.sc rt o base) s = .fault (.memoryRace a))

/-! ### Control flow -/

/-- J, JAL, JR and JALR: the delay slot comes next, then the target; the link is the address after the
delay slot. -/
def Obligations.JumpResults : Prop :=
  ∀ s : State, s.slot = none →
    (∀ x : BitVec 26,
      (∃ t, exec (.j x) s = .next t ∧ goesToSlot s t true (jumpDest s x) ∧ Frame {} s t) ∧
      (∃ t, exec (.jal x) s = .next t ∧ goesToSlot s t true (jumpDest s x) ∧ t.reg 31#5 = s.pc + 8#32 ∧
        Frame { regs := [31#5] } s t)) ∧
    (∀ rs : Reg, ∃ t, exec (.jr rs) s = .next t ∧ goesToSlot s t true (s.reg rs) ∧ Frame {} s t) ∧
    (∀ rd rs : Reg, rd ≠ rs → ∃ t, exec (.jalr rd rs) s = .next t ∧ goesToSlot s t true (s.reg rs) ∧
      (rd ≠ 0#5 → t.reg rd = s.pc + 8#32) ∧ Frame { regs := [rd] } s t)

/-- BEQ, BNE, BLEZ, BGTZ, BLTZ, BGEZ, BLTZAL and BGEZAL. -/
def Obligations.BranchResults : Prop :=
  ∀ c p link, (c, p, link) ∈ branches → ∀ (rs rt : Reg) (o : BitVec 16) (s : State),
    let taken := p (s.reg rs).toInt (s.reg rt).toInt
    s.slot = none → (link = true → rs ≠ 31#5) →
    ∃ t, exec (c rs rt o) s = .next t ∧
      goesToSlot s t taken (if taken then branchDest s o else s.npc + 4#32) ∧
      (link = true → t.reg 31#5 = s.pc + 8#32) ∧ Frame { regs := if link then [31#5] else [] } s t

/-- BEQL, BNEL, BLEZL, BGTZL, BLTZL, BGEZL, BLTZALL and BGEZALL: not taken, the delay slot is not
executed. That the instruction after the nullified slot is then in no delay slot (`t.slot = none`) is the
model's deduction (log entry 19): R191 does not say it, and R441 read literally sets bd there. -/
def Obligations.LikelyBranchResults : Prop :=
  ∀ c p link, (c, p, link) ∈ likelyBranches → ∀ (rs rt : Reg) (o : BitVec 16) (s : State),
    let taken := p (s.reg rs).toInt (s.reg rt).toInt
    s.slot = none → (link = true → rs ≠ 31#5) →
    ∃ t, exec (c rs rt o) s = .next t ∧
      (taken = true → goesToSlot s t true (branchDest s o)) ∧ (taken = false → skipsSlot s t) ∧
      (link = true → t.reg 31#5 = s.pc + 8#32) ∧ Frame { regs := if link then [31#5] else [] } s t

/-- R178, R182, R189, R190: the jumps and branches the spec calls undefined or not allowed are refused (the
model's choice, log entries 24 and 25). -/
def Obligations.UndefinedJumpsAreRefused : Prop :=
  (∀ (i : Instr) (s : State), isJump i = true → s.slot ≠ none →
    exec i s = .refused .branchInDelaySlot) ∧
  (∀ (rs : Reg) (s : State), s.slot = none → exec (.jalr rs rs) s = .refused .linkRegisterIsSource) ∧
  (∀ (o : BitVec 16) (s : State), s.slot = none →
    ∀ i ∈ [Instr.bltzal 31#5 o, .bgezal 31#5 o, .bltzall 31#5 o, .bgezall 31#5 o],
      exec i s = .refused .linkRegisterIsSource)

/-- TGE, TGEU, TLT, TLTU, TEQ, TNE and their immediate forms; SYSCALL and BREAK. -/
def Obligations.TrapInstructions : Prop :=
  (∀ c p, (c, p) ∈ registerTraps → ∀ (rs rt : Reg) (code : BitVec 10) (s : State),
    trapsIff (c rs rt code) s (p (s.reg rs) (s.reg rt))) ∧
  (∀ c p, (c, p) ∈ immediateTraps → ∀ (rs : Reg) (imm : BitVec 16) (s : State),
    trapsIff (c rs imm) s (p (s.reg rs) (BitVec.ofInt 32 imm.toInt))) ∧
  (∀ (code : BitVec 20) (s : State),
    traps (.syscall code) s .syscall ∧ traps (.brk code) s .breakpoint)

/-! ### Coprocessors -/

/-- R234 to R237: a coprocessor 0 instruction is refused; coprocessor 1, without a floating-point unit, and
coprocessor 3 are unusable; and the coprocessor 2 instructions the manual does not define are reserved. -/
def Obligations.UnusableCoprocessors : Prop :=
  ∀ (f : BitVec 26) (rt : Reg) (o : BitVec 16) (base : Reg) (low : BitVec 21) (s : State),
    exec (.cop0 f) s = .refused .coprocessor0Undefined ∧
    (s.params.hasFpu = false →
      ∀ i ∈ [Instr.cop1 f, .lwc1 rt o base, .swc1 rt o base, .ldc1 rt o base, .sdc1 rt o base],
        traps i s (.coprocessorUnusable 1#2)) ∧
    (∀ i ∈ [Instr.cop3 f, .lwc3 rt o base, .swc3 rt o base], traps i s (.coprocessorUnusable 3#2)) ∧
    (s.cu2 = true →
      ∀ i ∈ [Instr.lwc2 rt o base, .swc2 rt o base, .ldc2 rt o base, .sdc2 rt o base, .mfc2 low, .mtc2 low,
          .bc2f o, .bc2t o, .bc2fl o, .bc2tl o],
        traps i s (.reservedInstruction (encode i)))

/-- R46, R96, R221 to R226: with a floating-point unit, the moves between the general registers and the
registers of coprocessor 1, and the branches on its condition signal. That FCR0 is read only and that the
signal is bit 23 of FCR31 is presumed (log entry 50); that FCR31 takes every bit written is the model's
choice (log entry 51), and so is what a move does with a control register that is none: it gives a value
that is not constrained, and a write changes nothing (log entry 52). A move with an unused bit set is refused
(log entry 23), a selector outside R96 is reserved (R432), and the operations, outside the spec, are refused
(log entry 37). -/
def Obligations.CoprocessorOneMoves : Prop :=
  ∀ s : State, s.params.hasFpu = true →
    (∀ rt rd : Reg,
      setsReg (moveWord 0#5 rt rd) s rt (s.fgr rd) ∧
      (∃ t, exec (moveWord 4#5 rt rd) s = .next t ∧ t.fgr rd = s.reg rt ∧ Frame { fprs := [rd] } s t ∧
        goesOn s t) ∧
      setsReg (moveWord 2#5 rt 0#5) s rt s.fcr0 ∧ setsReg (moveWord 2#5 rt 31#5) s rt s.fcr31 ∧
      (∃ t, exec (moveWord 6#5 rt 31#5) s = .next t ∧ t.fcr31 = s.reg rt ∧ Frame { fcr31 := true } s t ∧
        goesOn s t) ∧
      (rd ≠ 31#5 → ∃ t, exec (moveWord 6#5 rt rd) s = .next t ∧ Frame {} s t ∧ goesOn s t) ∧
      (∃ t, exec (moveWord 2#5 rt rd) s = .next t ∧ Frame { regs := [rt], draws := true } s t ∧
        goesOn s t)) ∧
    (∀ (sense : Bool) (o : BitVec 16),
      let taken := (s.fcr31.toNat / 2 ^ 23 % 2 == 1) == sense
      let k := if sense then 1#5 else 0#5
      (s.slot = none →
        (∃ t, exec (branchWord k o) s = .next t ∧
          goesToSlot s t taken (if taken then branchDest s o else s.npc + 4#32) ∧ Frame {} s t) ∧
        (∃ t, exec (branchWord (k + 2#5) o) s = .next t ∧
          (taken = true → goesToSlot s t true (branchDest s o)) ∧ (taken = false → skipsSlot s t) ∧
          Frame {} s t)) ∧
      (s.slot ≠ none → exec (branchWord k o) s = .refused .branchInDelaySlot ∧
        exec (branchWord (k + 2#5) o) s = .refused .branchInDelaySlot)) ∧
    (∀ f : BitVec 26,
      let selector := f.toNat / 2 ^ 21
      (∀ m, (selector, m) ∈ [(0, "mfc1"), (2, "cfc1"), (4, "mtc1"), (6, "ctc1")] → f.toNat % 2 ^ 11 ≠ 0 →
        exec (.cop1 f) s = .refused (.unusedFieldBits m)) ∧
      (selector ∈ [1, 3, 5, 7, 9, 10, 11, 12, 13, 14, 15] ∨ (selector = 8 ∧ 4 ≤ f.toNat / 2 ^ 16 % 32) →
        traps (.cop1 f) s (.reservedInstruction (encode (.cop1 f)))) ∧
      (16 ≤ selector → exec (.cop1 f) s = .refused .fpuOutsideSpec))

/-- R46, R227 to R230: with a floating-point unit, LWC1, SWC1, LDC1 and SDC1, with their address errors, bus
errors and races. That a doubleword is an even and odd pair of registers, the even one low, and needs an
address that is a multiple of 8 is presumed (log entry 50). -/
def Obligations.CoprocessorOneMemory : Prop :=
  ∀ (rt : Reg) (o : BitVec 16) (base : Reg) (s : State),
    let a := s.effAddr base o
    let low := if s.params.bigEndian then a + 4#32 else a
    let high := if s.params.bigEndian then a else a + 4#32
    let mem := fun (kind : AccessKind) (n : Nat) =>
      (List.range (n / 4)).map fun k => (⟨.scalar, kind, byteAddr a (4 * k), 4, []⟩ : Access)
    let even := rt.toNat % 2 = 0
    let forms := [(Instr.lwc1 rt o base, AccessKind.read, 4), (Instr.swc1 rt o base, .write, 4),
      (Instr.ldc1 rt o base, .read, 8), (Instr.sdc1 rt o base, .write, 8)]
    s.params.hasFpu = true →
    (a.toNat % 4 = 0 → accessible s (mem .read 4) →
      ∃ t, exec (.lwc1 rt o base) s = .next t ∧ t.fgr rt = loaded s a 4 true ∧
        recorded s t (mem .read 4) ∧ Frame { fprs := [rt], record := true } s t ∧ goesOn s t) ∧
    (Memory.wf s.mem = true → a.toNat % 4 = 0 → accessible s (mem .write 4) →
      ∃ t, exec (.swc1 rt o base) s = .next t ∧
        (∀ k, k < 4 → t.byte (byteAddr a k) = storedByte s 4 (s.fgr rt) k) ∧
        recorded s t (mem .write 4) ∧ Frame { record := true, bytes := within a 4 } s t ∧ goesOn s t) ∧
    (even → a.toNat % 8 = 0 → accessible s (mem .read 8) →
      ∃ t, exec (.ldc1 rt o base) s = .next t ∧ t.fgr rt = loaded s low 4 true ∧
        t.fgr (rt + 1#5) = loaded s high 4 true ∧ recorded s t (mem .read 8) ∧
        Frame { fprs := [rt, rt + 1#5], record := true } s t ∧ goesOn s t) ∧
    (even → Memory.wf s.mem = true → a.toNat % 8 = 0 → accessible s (mem .write 8) →
      ∃ t, exec (.sdc1 rt o base) s = .next t ∧
        (∀ k, k < 4 → t.byte (byteAddr low k) = storedByte s 4 (s.fgr rt) k ∧
          t.byte (byteAddr high k) = storedByte s 4 (s.fgr (rt + 1#5)) k) ∧
        recorded s t (mem .write 8) ∧ Frame { record := true, bytes := within a 8 } s t ∧ goesOn s t) ∧
    (¬even → exec (.ldc1 rt o base) s = .refused .fpuOddPair ∧
      exec (.sdc1 rt o base) s = .refused .fpuOddPair) ∧
    (∀ i kind n, (i, kind, n) ∈ forms → (n = 8 → even) →
      (a.toNat % n ≠ 0 →
        traps i s (match kind with | .read => .addressErrorLoad a | .write => .addressErrorStore a)) ∧
      (∀ b, a.toNat % n = 0 → Params.firstUnbacked s.params a n = some b → traps i s (.busError b)) ∧
      (a.toNat % n = 0 → Params.firstUnbacked s.params a n = none → s.params.needsSync = true →
        ∀ x ∈ mem kind n, racing s x →
          ∃ y ∈ mem kind n, racing s y ∧ exec i s = .fault (.memoryRace y.addr)))

/-- CFVU: the six control registers (R31 to R33, R36, R39, R41, R241). Reading vcount gives some value,
which vcount then holds. -/
def Obligations.ControlRegisterReads : Prop :=
  ∀ (rt : Reg) (s : State), s.cu2 = true →
    setsReg (.cfvu rt 0#5) s rt (0#16 ++ 0#8 ++ Config.vrevRev) ∧
    setsReg (.cfvu rt 2#5) s rt (BitVec.ofNat 32 s.vlr.toNat) ∧
    setsReg (.cfvu rt 4#5) s rt s.vcond ∧ setsReg (.cfvu rt 8#5) s rt s.vovf ∧
    setsReg (.cfvu rt 12#5) s rt s.vsat ∧
    ∃ t, exec (.cfvu rt 1#5) s = .next t ∧ (rt ≠ 0#5 → t.reg rt = t.vcount) ∧
      Frame { regs := [rt], vcount := true, draws := true } s t ∧ goesOn s t

/-- CTVU: the six control registers (R242, R243). vrev and vcount are not changed, and vlr keeps the low 8
bits (the spec's own decisions D14 and D15). -/
def Obligations.ControlRegisterWrites : Prop :=
  ∀ (rt : Reg) (s : State), s.cu2 = true →
    (∃ t, exec (.ctvu rt 0#5) s = .next t ∧ Frame {} s t ∧ goesOn s t) ∧
    (∃ t, exec (.ctvu rt 1#5) s = .next t ∧ Frame {} s t ∧ goesOn s t) ∧
    (∃ t, exec (.ctvu rt 2#5) s = .next t ∧ t.vlr.toNat = (s.reg rt).toNat % 256 ∧
      Frame { vlr := true } s t ∧ goesOn s t) ∧
    (∃ t, exec (.ctvu rt 4#5) s = .next t ∧ t.vcond = s.reg rt ∧ Frame { vcond := true } s t ∧
      goesOn s t) ∧
    (∃ t, exec (.ctvu rt 8#5) s = .next t ∧ t.vovf = s.reg rt ∧ Frame { vovf := true } s t ∧
      goesOn s t) ∧
    (∃ t, exec (.ctvu rt 12#5) s = .next t ∧ t.vsat = s.reg rt ∧ Frame { vsat := true } s t ∧
      goesOn s t)

/-- The operands the spec calls unpredictable or undefined are refused (the model's choice, log entries 27,
28, 32 and 33): a control register number of no register, `rd = rt` in a unit-stride form, a fixed-point
configuration word that is not valid, and a VEXT.V whose 8-bit sum wraps. -/
def Obligations.UnpredictableOperandsAreRefused : Prop :=
  (∀ (rt : Reg) (cs : BitVec 5) (s : State), s.cu2 = true → cs.toNat ∉ [0, 1, 2, 4, 8, 12] →
    exec (.cfvu rt cs) s = .refused .invalidControlRegister ∧
    exec (.ctvu rt cs) s = .refused .invalidControlRegister) ∧
  (∀ c : Form3, (c ∈ unitLoads.map (·.1) ∨ c ∈ unitStores.map (·.1)) → ∀ (vd : VReg) (r : Reg) (s : State),
    vecReady (c vd r r) s → exec (c vd r r) s = .refused .incrementIsBase) ∧
  (∀ c f k, (c, f, k) ∈ fixed → ∀ (vw : VReg) (x y : BitVec 5) (rd : Reg) (s : State),
    vecReady (c vw x y rd) s → s.params.t0 = none →
    ((s.reg rd).toNat / 2 ^ 12 ≠ 0 ∨ (s.reg rd).toNat / 32 % 4 ≠ 0 →
      exec (c vw x y rd) s = .refused .configUnusedBits) ∧
    ((s.reg rd).toNat / 2 ^ 12 = 0 → (s.reg rd).toNat / 32 % 4 = 0 → (s.reg rd).toNat / 128 % 4 = 3 →
      exec (c vw x y rd) s = .refused .clipamReserved)) ∧
  (∀ (vd vt : VReg) (rd : Reg) (s : State), vecReady (.vextV vd vt rd) s →
    let sum := s.vlr.toNat + (s.reg rd).toNat % 256
    sum % 256 ≤ 32 → 32 < sum → exec (.vextV vd vt rd) s = .refused .extractOutsideRegister)

/-! ### Insert and extract -/

/-- VEXT.V, VINS.S and VEXT.S (R251 to R253). -/
def Obligations.InsertExtractResults : Prop :=
  (∀ (vd vt : VReg) (rd : Reg) (s : State), vecReady (.vextV vd vt rd) s →
    let start := (s.reg rd).toNat % 256
    s.vlr.toNat + start ≤ 32 →
    ∃ t, exec (.vextV vd vt rd) s = .next t ∧
      (vd ≠ 0#5 → ∀ e : Elem,
        (e.val < s.vlr.toNat → ∀ k : Elem, k.val = start + e.val → t.elem vd e = s.elem vt k) ∧
        (s.vlr.toNat ≤ e.val → t.elem vd e = s.elem vd e)) ∧
      Frame { vregs := [vd] } s t ∧ goesOn s t) ∧
  (∀ (rt : Reg) (vd : VReg) (rd : Reg) (s : State) (k : Elem), k.val = (s.reg rd).toNat % 256 →
    (vuUsable (.vinsS rt vd rd) s →
      ∃ t, exec (.vinsS rt vd rd) s = .next t ∧
        (vd ≠ 0#5 → ∀ e, t.elem vd e = if e = k then s.reg rt else s.elem vd e) ∧
        Frame { vregs := [vd] } s t ∧ goesOn s t) ∧
    (vuUsable (.vextS rt vd rd) s → setsReg (.vextS rt vd rd) s rt (s.elem vd k)))

/-! ### Vector loads and stores -/

/-- LBAI.V, LHAI.V, LWAI.V, LBUAI.V and LHUAI.V: the first vlr elements from consecutive addresses, then
the base is incremented. -/
def Obligations.UnitStrideLoads : Prop :=
  ∀ c n sg, (c, n, sg) ∈ unitLoads → ∀ (vd : VReg) (rd rt : Reg) (s : State),
    let addrs := s.unitAddrs rd n
    let new := vecAccesses .read addrs n s.vlr.toNat noWaits
    vecReady (c vd rd rt) s → rd ≠ rt → (s.reg rd).toNat % n = 0 → accessible s new →
    ∃ t, exec (c vd rd rt) s = .next t ∧ elemsAre s t vd (fun e => loaded s (addrs e) n sg) ∧
      (rd ≠ 0#5 → t.reg rd = s.reg rd + s.reg rt) ∧ recorded s t new ∧
      Frame { regs := [rd], vregs := [vd], record := true } s t ∧ goesOn s t

/-- The ten indexed and strided loads. -/
def Obligations.AddressedLoads : Prop :=
  ∀ c f n sg, (c, f, n, sg) ∈ addressedLoads → ∀ (vd : VReg) (rd : Reg) (y : BitVec 5) (s : State),
    let addrs := f.addrs s rd y
    let new := vecAccesses .read addrs n s.vlr.toNat (f.waits s y)
    vecReady (c vd rd y) s → aligned s addrs n → accessible s new →
    ∃ t, exec (c vd rd y) s = .next t ∧ elemsAre s t vd (fun e => loaded s (addrs e) n sg) ∧
      recorded s t new ∧ Frame { vregs := [vd], record := true } s t ∧ goesOn s t

/-- SBAI.V, SHAI.V and SWAI.V: the low bytes of the first vlr elements to consecutive addresses, no other
byte, then the base is incremented. -/
def Obligations.UnitStrideStores : Prop :=
  ∀ c n, (c, n) ∈ unitStores → ∀ (vd : VReg) (rd rt : Reg) (s : State),
    let addrs := s.unitAddrs rd n
    let new := vecAccesses .write addrs n s.vlr.toNat (s.waitsOf vd)
    Memory.wf s.mem = true → vecReady (c vd rd rt) s → rd ≠ rt → (s.reg rd).toNat % n = 0 →
    accessible s new →
    ∃ t, exec (c vd rd rt) s = .next t ∧
      (∀ e : Elem, e.val < s.vlr.toNat → ∀ k, k < n →
        t.byte (byteAddr (addrs e) k) = storedByte s n (s.elem vd e) k) ∧
      (rd ≠ 0#5 → t.reg rd = s.reg rd + s.reg rt) ∧ recorded s t new ∧
      Frame { regs := [rd], record := true, draws := true,
              bytes := fun b => ∃ e : Elem, e.val < s.vlr.toNat ∧ within (addrs e) n b } s t ∧
      goesOn s t

/-- The six indexed and strided stores: where element addresses coincide, any one of the values stored
there remains. -/
def Obligations.AddressedStores : Prop :=
  ∀ c f n, (c, f, n) ∈ addressedStores → ∀ (vd : VReg) (rd : Reg) (y : BitVec 5) (s : State),
    let addrs := f.addrs s rd y
    let new := vecAccesses .write addrs n s.vlr.toNat fun e => s.waitsOf vd e ++ f.waits s y e
    Memory.wf s.mem = true → vecReady (c vd rd y) s → aligned s addrs n → accessible s new →
    ∃ t, exec (c vd rd y) s = .next t ∧ storedElems s t vd addrs n ∧ recorded s t new ∧
      Frame { record := true, draws := true,
              bytes := fun b => ∃ e : Elem, e.val < s.vlr.toNat ∧ within (addrs e) n b } s t ∧
      goesOn s t

/-- R162, R261: the effective addresses and the element addresses, modulo 2^32. -/
def Obligations.AddressArithmetic : Prop :=
  ∀ (s : State) (rd y : BitVec 5) (o : BitVec 16) (n : Nat) (e : Elem),
    s.effAddr rd o = BitVec.ofInt 32 ((s.reg rd).toInt + o.toInt) ∧
    (s.unitAddrs rd n e).toNat = ((s.reg rd).toNat + n * e.val) % 2 ^ 32 ∧
    (s.strideAddrs rd y e).toNat = ((s.reg rd).toNat + (s.reg y).toNat * e.val) % 2 ^ 32 ∧
    (s.indexAddrs rd y e).toNat = ((s.reg rd).toNat + (s.elem y e).toNat) % 2 ^ 32

/-- R435, R438: the vector address exception reports the unit-stride base, or the address of the lowest
misaligned element. -/
def Obligations.VectorAddressExceptions : Prop :=
  (∀ (c : Form3) (n : Nat), ((c, n) ∈ unitLoads.map (fun r => (r.1, r.2.1)) ∨ (c, n) ∈ unitStores) →
    ∀ (vd : VReg) (rd rt : Reg) (s : State), vecReady (c vd rd rt) s → rd ≠ rt →
      (s.reg rd).toNat % n ≠ 0 → traps (c vd rd rt) s (.vectorAddress (s.reg rd))) ∧
  (∀ (c : Form3) (f : AddrForm) (n : Nat),
    ((c, f, n) ∈ addressedLoads.map (fun r => (r.1, r.2.1, r.2.2.1)) ∨ (c, f, n) ∈ addressedStores) →
    ∀ (vd : VReg) (rd : Reg) (y : BitVec 5) (s : State) (e : Elem), vecReady (c vd rd y) s →
      e.val < s.vlr.toNat → (f.addrs s rd y e).toNat % n ≠ 0 →
      (∀ j : Elem, j.val < e.val → (f.addrs s rd y j).toNat % n = 0) →
      traps (c vd rd y) s (.vectorAddress (f.addrs s rd y e)))

/-- R437, R438: when every address is aligned, the bus error of a vector load or store is that of the
lowest element whose bytes are not all backed. -/
def Obligations.VectorBusErrors : Prop :=
  (∀ (c : Form3) (n : Nat), ((c, n) ∈ unitLoads.map (fun r => (r.1, r.2.1)) ∨ (c, n) ∈ unitStores) →
    ∀ (vd : VReg) (rd rt : Reg) (s : State) (e : Elem) (b : Word), vecReady (c vd rd rt) s → rd ≠ rt →
      (s.reg rd).toNat % n = 0 → e.val < s.vlr.toNat →
      Params.firstUnbacked s.params (s.unitAddrs rd n e) n = some b →
      (∀ j : Elem, j.val < e.val → Params.firstUnbacked s.params (s.unitAddrs rd n j) n = none) →
      traps (c vd rd rt) s (.busError b)) ∧
  (∀ (c : Form3) (f : AddrForm) (n : Nat),
    ((c, f, n) ∈ addressedLoads.map (fun r => (r.1, r.2.1, r.2.2.1)) ∨ (c, f, n) ∈ addressedStores) →
    ∀ (vd : VReg) (rd : Reg) (y : BitVec 5) (s : State) (e : Elem) (b : Word), vecReady (c vd rd y) s →
      aligned s (f.addrs s rd y) n → e.val < s.vlr.toNat →
      Params.firstUnbacked s.params (f.addrs s rd y e) n = some b →
      (∀ j : Elem, j.val < e.val → Params.firstUnbacked s.params (f.addrs s rd y j) n = none) →
      traps (c vd rd y) s (.busError b))

/-- R74, R75, R475: a vector load or store of which an element shares a byte with an unfinished access, one of
them writing and one of them a vector access, is a race, on which the model stops (its choice, log entry
15), reporting the first such element; except that an element whose value or index comes from the
unfinished load itself comes after it and does not race with it (the model's deduction, log entry 16).
Backed accesses that do not race can be made. -/
def Obligations.VectorConflictsFault : Prop :=
  (∀ (s : State) (new : List Access), (∀ x ∈ new, Params.firstUnbacked s.params x.addr x.size = none) →
    (s.params.needsSync = true → ∀ x ∈ new, ¬racing s x) → accessible s new) ∧
  (∀ (vd : VReg) (rd rt : Reg) (s : State) (e : Elem), rd ≠ rt →
    (∀ c n sg, (c, n, sg) ∈ unitLoads → vecReady (c vd rd rt) s → (s.reg rd).toNat % n = 0 →
      racesFirstAt s .read (s.unitAddrs rd n) n noWaits e →
      exec (c vd rd rt) s = .fault (.memoryRace (s.unitAddrs rd n e))) ∧
    (∀ c n, (c, n) ∈ unitStores → vecReady (c vd rd rt) s → (s.reg rd).toNat % n = 0 →
      racesFirstAt s .write (s.unitAddrs rd n) n (s.waitsOf vd) e →
      exec (c vd rd rt) s = .fault (.memoryRace (s.unitAddrs rd n e)))) ∧
  (∀ (vd : VReg) (rd : Reg) (y : BitVec 5) (s : State) (e : Elem),
    (∀ c f n sg, (c, f, n, sg) ∈ addressedLoads → vecReady (c vd rd y) s → aligned s (f.addrs s rd y) n →
      racesFirstAt s .read (f.addrs s rd y) n (f.waits s y) e →
      exec (c vd rd y) s = .fault (.memoryRace (f.addrs s rd y e))) ∧
    (∀ c f n, (c, f, n) ∈ addressedStores → vecReady (c vd rd y) s → aligned s (f.addrs s rd y) n →
      racesFirstAt s .write (f.addrs s rd y) n (fun j => s.waitsOf vd j ++ f.waits s y j) e →
      exec (c vd rd y) s = .fault (.memoryRace (f.addrs s rd y e))))

/-- R75: which unfinished loads a vector register element comes from after the instruction that wrote it
(the model's deduction, log entry 16): a loaded element from its own load and those of its index, a
computed one from those of its operands, a moved one from those of the element it copies, one inserted
from a general register from none. An element that a conditional move writes comes from both operands; one
that it passes over keeps its own and adds those of the first operand, which decided it; one that a T0
conditional write passes over keeps its own and adds those of the operands that decided it. -/
def Obligations.RegisterDependences : Prop :=
  (∀ c f, (c, f) ∈ vectorResults.map (fun r => (r.1, r.2.1)) ++ overflowing.map (fun r => (r.1, r.2.1)) →
    ∀ (vw : VReg) (x y : BitVec 5) (s t : State), vecReady (c vw x y) s → exec (c vw x y) s = .next t →
      waitsAre s t vw (f.allWaits s x y)) ∧
  (∀ c f p, (c, f, p) ∈ moving → ∀ (vw : VReg) (x y : BitVec 5) (s t : State), vecReady (c vw x y) s →
    exec (c vw x y) s = .next t → waitsAre s t vw fun e => (f.waits s x y e).1 ++
      if p (f.operands s x y e).1.toInt then (f.waits s x y e).2 else s.waitsOf vw e) ∧
  (∀ c f k, (c, f, k) ∈ fixed → ∀ (vw : VReg) (x y : BitVec 5) (rd : Reg) (s t : State),
    vecReady (c vw x y rd) s → exec (c vw x y rd) s = .next t →
    (s.params.t0 = none → waitsAre s t vw (f.allWaits s x y)) ∧
    ∀ l, s.params.t0 = some l → vw ≠ 0#5 → ∀ (e : Elem) (j : Nat), j ∈ t.waitsOf vw e ↔
      if s.vlr.toNat ≤ e.val then j ∈ s.waitsOf vw e
      else if (t0Elem k l (s.reg rd) (f.operands s x y e)).2 then j ∈ f.allWaits s x y e
      else j ∈ s.waitsOf vw e ∨ ((decides k l (s.reg rd)).1 ∧ j ∈ (f.waits s x y e).1) ∨
        ((decides k l (s.reg rd)).2 ∧ j ∈ (f.waits s x y e).2)) ∧
  (∀ c n sg, (c, n, sg) ∈ unitLoads → ∀ (vd : VReg) (rd rt : Reg) (s t : State),
    exec (c vd rd rt) s = .next t → t.trap = none →
    waitsAre s t vd fun e => [s.pending.length + e.val]) ∧
  (∀ c f n sg, (c, f, n, sg) ∈ addressedLoads → ∀ (vd : VReg) (rd : Reg) (y : BitVec 5) (s t : State),
    exec (c vd rd y) s = .next t → t.trap = none →
    waitsAre s t vd fun e => (s.pending.length + e.val) :: f.waits s y e) ∧
  (∀ (vd vt : VReg) (rd : Reg) (s t : State), exec (.vextV vd vt rd) s = .next t → t.trap = none →
    waitsAre s t vd fun e =>
      ((List.finRange 32).filter fun k => k.val == (s.reg rd).toNat % 256 + e.val).flatMap (s.waitsOf vt)) ∧
  (∀ (rt : Reg) (vd : VReg) (rd : Reg) (s t : State), exec (.vinsS rt vd rd) s = .next t → t.trap = none →
    vd ≠ 0#5 → ∀ (e : Elem) (j : Nat),
      j ∈ t.waitsOf vd e ↔ e.val ≠ (s.reg rd).toNat % 256 ∧ j ∈ s.waitsOf vd e)

/-! ### Vector arithmetic -/

/-- The 30 logic, unsigned add and subtract, shift and set instructions: the result in the first vlr
elements of `vw`, and nothing else changed. -/
def Obligations.VectorResults : Prop :=
  ∀ c f g, (c, f, g) ∈ vectorResults → ∀ (vw : VReg) (x y : BitVec 5) (s : State),
    vecReady (c vw x y) s →
    ∃ t, exec (c vw x y) s = .next t ∧
      elemsAre s t vw (fun e => g (f.operands s x y e).1 (f.operands s x y e).2) ∧
      Frame { vregs := [vw] } s t ∧ goesOn s t

/-- R39: ADD.VV, ADD.VS, SUB.VV, SUB.VS and SUB.SV write the low 32 bits of the exact result and OR a 1
into the vovf bit of every element whose result does not fit 32 signed bits; CTVU writes the whole
register, CFVU reads it; nothing else alters vovf. -/
def Obligations.OverflowRegister : Prop :=
  (∀ c f g, (c, f, g) ∈ overflowing → ∀ (vw : VReg) (x y : BitVec 5) (s : State),
    let v := fun e => g (f.operands s x y e).1.toInt (f.operands s x y e).2.toInt
    vecReady (c vw x y) s →
    ∃ t, exec (c vw x y) s = .next t ∧ elemsAre s t vw (fun e => BitVec.ofInt 32 (v e)) ∧
      (∀ e : Elem, t.vovf.getLsbD e.val = true ↔
        s.vovf.getLsbD e.val = true ∨ (e.val < s.vlr.toNat ∧ ¬fits (v e))) ∧
      Frame { vregs := [vw], vovf := true } s t ∧ goesOn s t) ∧
  (∀ (rt : Reg) (s : State), s.cu2 = true →
    setsReg (.cfvu rt 8#5) s rt s.vovf ∧ ∃ t, exec (.ctvu rt 8#5) s = .next t ∧ t.vovf = s.reg rt) ∧
  ∀ (i : Instr) (s t : State), exec i s = .next t → setsVovf i = false → (∀ rt, i ≠ .ctvu rt 8#5) →
    t.vovf = s.vovf

/-- R37: FLT, FLTU and FEQ set bits 0 to vlr-1 of vcond to the comparisons and keep the others; CTVU writes
the whole register; nothing else alters vcond. -/
def Obligations.ConditionRegister : Prop :=
  (∀ c f p, (c, f, p) ∈ flagging → ∀ (x y : BitVec 5) (s : State), vecReady (c x y) s →
    ∃ t, exec (c x y) s = .next t ∧
      (∀ e : Elem, t.vcond.getLsbD e.val = if e.val < s.vlr.toNat
        then p (f.operands s x y e).1 (f.operands s x y e).2 else s.vcond.getLsbD e.val) ∧
      Frame { vcond := true } s t ∧ goesOn s t) ∧
  (∀ (rt : Reg) (s : State), s.cu2 = true →
    ∃ t, exec (.ctvu rt 4#5) s = .next t ∧ t.vcond = s.reg rt) ∧
  ∀ (i : Instr) (s t : State), exec i s = .next t → setsVcond i = false → (∀ rt, i ≠ .ctvu rt 4#5) →
    t.vcond = s.vcond

/-- The twelve conditional moves: the second operand where the first meets the condition, the old element
elsewhere. -/
def Obligations.ConditionalMoves : Prop :=
  ∀ c f p, (c, f, p) ∈ moving → ∀ (vw : VReg) (x y : BitVec 5) (s : State), vecReady (c vw x y) s →
    ∃ t, exec (c vw x y) s = .next t ∧
      elemsAre s t vw (fun e => if p (f.operands s x y e).1.toInt then (f.operands s x y e).2
        else s.elem vw e) ∧
      Frame { vregs := [vw] } s t ∧ goesOn s t

/-- The nine fixed-point instructions with a valid configuration word. -/
def Obligations.FixedPointResults : Prop :=
  ∀ c f k, (c, f, k) ∈ fixed → ∀ (vw : VReg) (x y : BitVec 5) (rd : Reg) (s : State),
    vecReady (c vw x y rd) s → s.params.t0 = none → fxValid (s.reg rd) →
    ∃ t, exec (c vw x y rd) s = .next t ∧ fxResult s t k vw (f.operands s x y) (s.reg rd) ∧
      Frame { vregs := [vw], vsat := true } s t ∧ goesOn s t

/-- R418: on T0, with every T0-only field zero, the fixed-point instructions give the architectural
result. -/
def Obligations.T0ReducesToArchitecture : Prop :=
  ∀ c f k, (c, f, k) ∈ fixed → ∀ (vw : VReg) (x y : BitVec 5) (rd : Reg) (s : State) (l : T0Layout),
    vecReady (c vw x y rd) s → s.params.t0 = some l → layoutValid l = true → fxValid (s.reg rd) →
    ∃ t, exec (c vw x y rd) s = .next t ∧ fxResult s t k vw (f.operands s x y) (s.reg rd) ∧
      Frame { vregs := [vw], vsat := true, draws := true } s t ∧ goesOn s t

/-- R401 to R417: on T0 every configuration word that sets T0-only fields and no stray bit runs the
pipelines of appendix A, with `clipam` 11 as 16 bits (R408) and 1100 of Table 10 as exclusive or (C11).
What the text leaves open, FLAG under a suppressed write, is not constrained. A stray bit is refused (the
model's choice, log entry 28), and so is FXMUL with a field that must be zero (log entry 31). -/
def Obligations.T0PipelineResults : Prop :=
  ∀ c f k, (c, f, k) ∈ fixed → ∀ (vw : VReg) (x y : BitVec 5) (rd : Reg) (s : State) (l : T0Layout),
    vecReady (c vw x y rd) s → s.params.t0 = some l →
    (¬strayBit l (s.reg rd) → (k = .mul → ¬mulStops l (s.reg rd)) →
      ∃ t, exec (c vw x y rd) s = .next t ∧ t0Result s t k l vw (f.operands s x y) (s.reg rd) ∧
        Frame { vregs := [vw], vsat := true, draws := true } s t ∧ goesOn s t) ∧
    (strayBit l (s.reg rd) → exec (c vw x y rd) s = .refused .configUnusedBits) ∧
    (¬strayBit l (s.reg rd) → k = .mul → mulStops l (s.reg rd) →
      exec (c vw x y rd) s = .refused .t0FieldMustBeZero)

end
end

