-- ==== Sys2Proof/Laws/Encoding.lean ====
section
/-! SUPPORT. The fields of a word that a format builds, and a word built again from its fields. -/

namespace Sys2Proof

/-! ### `mkR` -/

@[simp] theorem opOf_mkR (op : BitVec 6) (rs : BitVec 5) (rt : BitVec 5) (rd : BitVec 5) (sa : BitVec 5) (funct : BitVec 6) :
    opOf (mkR op rs rt rd sa funct) = op := by
  unfold opOf mkR; ext k hk; simp only [BitVec.getElem_extractLsb', BitVec.getLsbD_append]; grind

@[simp] theorem rsOf_mkR (op : BitVec 6) (rs : BitVec 5) (rt : BitVec 5) (rd : BitVec 5) (sa : BitVec 5) (funct : BitVec 6) :
    rsOf (mkR op rs rt rd sa funct) = rs := by
  unfold rsOf mkR; ext k hk; simp only [BitVec.getElem_extractLsb', BitVec.getLsbD_append]; grind

@[simp] theorem rtOf_mkR (op : BitVec 6) (rs : BitVec 5) (rt : BitVec 5) (rd : BitVec 5) (sa : BitVec 5) (funct : BitVec 6) :
    rtOf (mkR op rs rt rd sa funct) = rt := by
  unfold rtOf mkR; ext k hk; simp only [BitVec.getElem_extractLsb', BitVec.getLsbD_append]; grind

@[simp] theorem rdOf_mkR (op : BitVec 6) (rs : BitVec 5) (rt : BitVec 5) (rd : BitVec 5) (sa : BitVec 5) (funct : BitVec 6) :
    rdOf (mkR op rs rt rd sa funct) = rd := by
  unfold rdOf mkR; ext k hk; simp only [BitVec.getElem_extractLsb', BitVec.getLsbD_append]; grind

@[simp] theorem saOf_mkR (op : BitVec 6) (rs : BitVec 5) (rt : BitVec 5) (rd : BitVec 5) (sa : BitVec 5) (funct : BitVec 6) :
    saOf (mkR op rs rt rd sa funct) = sa := by
  unfold saOf mkR; ext k hk; simp only [BitVec.getElem_extractLsb', BitVec.getLsbD_append]; grind

@[simp] theorem functOf_mkR (op : BitVec 6) (rs : BitVec 5) (rt : BitVec 5) (rd : BitVec 5) (sa : BitVec 5) (funct : BitVec 6) :
    functOf (mkR op rs rt rd sa funct) = funct := by
  unfold functOf mkR; ext k hk; simp only [BitVec.getElem_extractLsb', BitVec.getLsbD_append]; grind

/-! ### `mkI` -/

@[simp] theorem opOf_mkI (op : BitVec 6) (rs : BitVec 5) (rt : BitVec 5) (imm : BitVec 16) :
    opOf (mkI op rs rt imm) = op := by
  unfold opOf mkI; ext k hk; simp only [BitVec.getElem_extractLsb', BitVec.getLsbD_append]; grind

@[simp] theorem rsOf_mkI (op : BitVec 6) (rs : BitVec 5) (rt : BitVec 5) (imm : BitVec 16) :
    rsOf (mkI op rs rt imm) = rs := by
  unfold rsOf mkI; ext k hk; simp only [BitVec.getElem_extractLsb', BitVec.getLsbD_append]; grind

@[simp] theorem rtOf_mkI (op : BitVec 6) (rs : BitVec 5) (rt : BitVec 5) (imm : BitVec 16) :
    rtOf (mkI op rs rt imm) = rt := by
  unfold rtOf mkI; ext k hk; simp only [BitVec.getElem_extractLsb', BitVec.getLsbD_append]; grind

@[simp] theorem immOf_mkI (op : BitVec 6) (rs : BitVec 5) (rt : BitVec 5) (imm : BitVec 16) :
    immOf (mkI op rs rt imm) = imm := by
  unfold immOf mkI; ext k hk; simp only [BitVec.getElem_extractLsb', BitVec.getLsbD_append]; grind

/-! ### `mkJ` -/

@[simp] theorem opOf_mkJ (op : BitVec 6) (target : BitVec 26) :
    opOf (mkJ op target) = op := by
  unfold opOf mkJ; ext k hk; simp only [BitVec.getElem_extractLsb', BitVec.getLsbD_append]; grind

@[simp] theorem targetOf_mkJ (op : BitVec 6) (target : BitVec 26) :
    targetOf (mkJ op target) = target := by
  unfold targetOf mkJ; ext k hk; simp only [BitVec.getElem_extractLsb', BitVec.getLsbD_append]; grind

/-! ### `mkT` -/

@[simp] theorem opOf_mkT (rs : BitVec 5) (rt : BitVec 5) (code : BitVec 10) (funct : BitVec 6) :
    opOf (mkT rs rt code funct) = 0#6 := by
  unfold opOf mkT; ext k hk; simp only [BitVec.getElem_extractLsb', BitVec.getLsbD_append]; grind

@[simp] theorem rsOf_mkT (rs : BitVec 5) (rt : BitVec 5) (code : BitVec 10) (funct : BitVec 6) :
    rsOf (mkT rs rt code funct) = rs := by
  unfold rsOf mkT; ext k hk; simp only [BitVec.getElem_extractLsb', BitVec.getLsbD_append]; grind

@[simp] theorem rtOf_mkT (rs : BitVec 5) (rt : BitVec 5) (code : BitVec 10) (funct : BitVec 6) :
    rtOf (mkT rs rt code funct) = rt := by
  unfold rtOf mkT; ext k hk; simp only [BitVec.getElem_extractLsb', BitVec.getLsbD_append]; grind

@[simp] theorem codeOf_mkT (rs : BitVec 5) (rt : BitVec 5) (code : BitVec 10) (funct : BitVec 6) :
    codeOf (mkT rs rt code funct) = code := by
  unfold codeOf mkT; ext k hk; simp only [BitVec.getElem_extractLsb', BitVec.getLsbD_append]; grind

@[simp] theorem functOf_mkT (rs : BitVec 5) (rt : BitVec 5) (code : BitVec 10) (funct : BitVec 6) :
    functOf (mkT rs rt code funct) = funct := by
  unfold functOf mkT; ext k hk; simp only [BitVec.getElem_extractLsb', BitVec.getLsbD_append]; grind

/-! ### `mkS` -/

@[simp] theorem opOf_mkS (sys : BitVec 20) (funct : BitVec 6) :
    opOf (mkS sys funct) = 0#6 := by
  unfold opOf mkS; ext k hk; simp only [BitVec.getElem_extractLsb', BitVec.getLsbD_append]; grind

@[simp] theorem sysCodeOf_mkS (sys : BitVec 20) (funct : BitVec 6) :
    sysCodeOf (mkS sys funct) = sys := by
  unfold sysCodeOf mkS; ext k hk; simp only [BitVec.getElem_extractLsb', BitVec.getLsbD_append]; grind

@[simp] theorem functOf_mkS (sys : BitVec 20) (funct : BitVec 6) :
    functOf (mkS sys funct) = funct := by
  unfold functOf mkS; ext k hk; simp only [BitVec.getElem_extractLsb', BitVec.getLsbD_append]; grind

/-! ### `mkL` -/

@[simp] theorem opOf_mkL (op : BitVec 6) (rs : BitVec 5) (low : BitVec 21) :
    opOf (mkL op rs low) = op := by
  unfold opOf mkL; ext k hk; simp only [BitVec.getElem_extractLsb', BitVec.getLsbD_append]; grind

@[simp] theorem rsOf_mkL (op : BitVec 6) (rs : BitVec 5) (low : BitVec 21) :
    rsOf (mkL op rs low) = rs := by
  unfold rsOf mkL; ext k hk; simp only [BitVec.getElem_extractLsb', BitVec.getLsbD_append]; grind

@[simp] theorem lowOf_mkL (op : BitVec 6) (rs : BitVec 5) (low : BitVec 21) :
    lowOf (mkL op rs low) = low := by
  unfold lowOf mkL; ext k hk; simp only [BitVec.getElem_extractLsb', BitVec.getLsbD_append]; grind

/-! ### `mkV` -/

@[simp] theorem opOf_mkV (rs : BitVec 5) (rt : BitVec 5) (rd : BitVec 5) (opers : BitVec 1) (vw : BitVec 5) (vd : BitVec 5) :
    opOf (mkV rs rt rd opers vw vd) = 0b010010#6 := by
  unfold opOf mkV; ext k hk; simp only [BitVec.getElem_extractLsb', BitVec.getLsbD_append]; grind

@[simp] theorem rsOf_mkV (rs : BitVec 5) (rt : BitVec 5) (rd : BitVec 5) (opers : BitVec 1) (vw : BitVec 5) (vd : BitVec 5) :
    rsOf (mkV rs rt rd opers vw vd) = rs := by
  unfold rsOf mkV; ext k hk; simp only [BitVec.getElem_extractLsb', BitVec.getLsbD_append]; grind

@[simp] theorem rtOf_mkV (rs : BitVec 5) (rt : BitVec 5) (rd : BitVec 5) (opers : BitVec 1) (vw : BitVec 5) (vd : BitVec 5) :
    rtOf (mkV rs rt rd opers vw vd) = rt := by
  unfold rtOf mkV; ext k hk; simp only [BitVec.getElem_extractLsb', BitVec.getLsbD_append]; grind

@[simp] theorem rdOf_mkV (rs : BitVec 5) (rt : BitVec 5) (rd : BitVec 5) (opers : BitVec 1) (vw : BitVec 5) (vd : BitVec 5) :
    rdOf (mkV rs rt rd opers vw vd) = rd := by
  unfold rdOf mkV; ext k hk; simp only [BitVec.getElem_extractLsb', BitVec.getLsbD_append]; grind

@[simp] theorem opersOf_mkV (rs : BitVec 5) (rt : BitVec 5) (rd : BitVec 5) (opers : BitVec 1) (vw : BitVec 5) (vd : BitVec 5) :
    opersOf (mkV rs rt rd opers vw vd) = opers := by
  unfold opersOf mkV; ext k hk; simp only [BitVec.getElem_extractLsb', BitVec.getLsbD_append]; grind

@[simp] theorem vwOf_mkV (rs : BitVec 5) (rt : BitVec 5) (rd : BitVec 5) (opers : BitVec 1) (vw : BitVec 5) (vd : BitVec 5) :
    vwOf (mkV rs rt rd opers vw vd) = vw := by
  unfold vwOf mkV; ext k hk; simp only [BitVec.getElem_extractLsb', BitVec.getLsbD_append]; grind

@[simp] theorem vdOf_mkV (rs : BitVec 5) (rt : BitVec 5) (rd : BitVec 5) (opers : BitVec 1) (vw : BitVec 5) (vd : BitVec 5) :
    vdOf (mkV rs rt rd opers vw vd) = vd := by
  unfold vdOf mkV; ext k hk; simp only [BitVec.getElem_extractLsb', BitVec.getLsbD_append]; grind

/-- A word is what `mkR` builds from its fields. -/
theorem mkR_fields (w : Word) :
    mkR (opOf w) (rsOf w) (rtOf w) (rdOf w) (saOf w) (functOf w) = w := by
  unfold mkR
  ext k hk
  simp only [BitVec.getElem_append, opOf, rsOf, rtOf, rdOf, saOf, functOf, BitVec.getElem_extractLsb']
  grind

/-- A word is what `mkI` builds from its fields. -/
theorem mkI_fields (w : Word) :
    mkI (opOf w) (rsOf w) (rtOf w) (immOf w) = w := by
  unfold mkI
  ext k hk
  simp only [BitVec.getElem_append, opOf, rsOf, rtOf, immOf, BitVec.getElem_extractLsb']
  grind

/-- A word is what `mkJ` builds from its fields. -/
theorem mkJ_fields (w : Word) :
    mkJ (opOf w) (targetOf w) = w := by
  unfold mkJ
  ext k hk
  simp only [BitVec.getElem_append, opOf, targetOf, BitVec.getElem_extractLsb']
  grind

/-- A word is what `mkT` builds from its fields. -/
theorem mkT_fields (w : Word) (h : opOf w = 0#6) :
    mkT (rsOf w) (rtOf w) (codeOf w) (functOf w) = w := by
  unfold mkT; rw [← h]
  ext k hk
  simp only [BitVec.getElem_append, opOf, rsOf, rtOf, codeOf, functOf, BitVec.getElem_extractLsb']
  grind

/-- A word is what `mkS` builds from its fields. -/
theorem mkS_fields (w : Word) (h : opOf w = 0#6) :
    mkS (sysCodeOf w) (functOf w) = w := by
  unfold mkS; rw [← h]
  ext k hk
  simp only [BitVec.getElem_append, opOf, sysCodeOf, functOf, BitVec.getElem_extractLsb']
  grind

/-- A word is what `mkL` builds from its fields. -/
theorem mkL_fields (w : Word) :
    mkL (opOf w) (rsOf w) (lowOf w) = w := by
  unfold mkL
  ext k hk
  simp only [BitVec.getElem_append, opOf, rsOf, lowOf, BitVec.getElem_extractLsb']
  grind

/-- A word is what `mkV` builds from its fields. -/
theorem mkV_fields (w : Word) (h : opOf w = 0b010010#6) :
    mkV (rsOf w) (rtOf w) (rdOf w) (opersOf w) (vwOf w) (vdOf w) = w := by
  unfold mkV; rw [← h]
  ext k hk
  simp only [BitVec.getElem_append, opOf, rsOf, rtOf, rdOf, opersOf, vwOf, vdOf, BitVec.getElem_extractLsb']
  grind

end Sys2Proof
end

