-- ==== Sys2Proof/Laws/State.lean ====
section
/-! SUPPORT. One lemma per field per state update, so that no proof unfolds a record update. -/

namespace Sys2Proof.Machine

variable (s : State)

/-! ### `State.setReg` -/

@[simp] theorem setReg_params (r : Reg) (v : Word) : (s.setReg r v).params = s.params :=
  by unfold State.setReg; split <;> rfl
@[simp] theorem setReg_hi (r : Reg) (v : Word) : (s.setReg r v).hi = s.hi :=
  by unfold State.setReg; split <;> rfl
@[simp] theorem setReg_lo (r : Reg) (v : Word) : (s.setReg r v).lo = s.lo :=
  by unfold State.setReg; split <;> rfl
@[simp] theorem setReg_hiFromMul (r : Reg) (v : Word) : (s.setReg r v).hiFromMul = s.hiFromMul :=
  by unfold State.setReg; split <;> rfl
@[simp] theorem setReg_loFromMul (r : Reg) (v : Word) : (s.setReg r v).loFromMul = s.loFromMul :=
  by unfold State.setReg; split <;> rfl
@[simp] theorem setReg_pc (r : Reg) (v : Word) : (s.setReg r v).pc = s.pc :=
  by unfold State.setReg; split <;> rfl
@[simp] theorem setReg_npc (r : Reg) (v : Word) : (s.setReg r v).npc = s.npc :=
  by unfold State.setReg; split <;> rfl
@[simp] theorem setReg_slot (r : Reg) (v : Word) : (s.setReg r v).slot = s.slot :=
  by unfold State.setReg; split <;> rfl
@[simp] theorem setReg_acrossTop (r : Reg) (v : Word) : (s.setReg r v).acrossTop = s.acrossTop :=
  by unfold State.setReg; split <;> rfl
@[simp] theorem setReg_vregs (r : Reg) (v : Word) : (s.setReg r v).vregs = s.vregs :=
  by unfold State.setReg; split <;> rfl
@[simp] theorem setReg_waits (r : Reg) (v : Word) : (s.setReg r v).waits = s.waits :=
  by unfold State.setReg; split <;> rfl
@[simp] theorem setReg_vcount (r : Reg) (v : Word) : (s.setReg r v).vcount = s.vcount :=
  by unfold State.setReg; split <;> rfl
@[simp] theorem setReg_vlr (r : Reg) (v : Word) : (s.setReg r v).vlr = s.vlr :=
  by unfold State.setReg; split <;> rfl
@[simp] theorem setReg_vcond (r : Reg) (v : Word) : (s.setReg r v).vcond = s.vcond :=
  by unfold State.setReg; split <;> rfl
@[simp] theorem setReg_vovf (r : Reg) (v : Word) : (s.setReg r v).vovf = s.vovf :=
  by unfold State.setReg; split <;> rfl
@[simp] theorem setReg_vsat (r : Reg) (v : Word) : (s.setReg r v).vsat = s.vsat :=
  by unfold State.setReg; split <;> rfl
@[simp] theorem setReg_cu2 (r : Reg) (v : Word) : (s.setReg r v).cu2 = s.cu2 :=
  by unfold State.setReg; split <;> rfl
@[simp] theorem setReg_fpr (r : Reg) (v : Word) : (s.setReg r v).fpr = s.fpr :=
  by unfold State.setReg; split <;> rfl
@[simp] theorem setReg_fcr0 (r : Reg) (v : Word) : (s.setReg r v).fcr0 = s.fcr0 :=
  by unfold State.setReg; split <;> rfl
@[simp] theorem setReg_fcr31 (r : Reg) (v : Word) : (s.setReg r v).fcr31 = s.fcr31 :=
  by unfold State.setReg; split <;> rfl
@[simp] theorem setReg_llBit (r : Reg) (v : Word) : (s.setReg r v).llBit = s.llBit :=
  by unfold State.setReg; split <;> rfl
@[simp] theorem setReg_llAddr (r : Reg) (v : Word) : (s.setReg r v).llAddr = s.llAddr :=
  by unfold State.setReg; split <;> rfl
@[simp] theorem setReg_llClean (r : Reg) (v : Word) : (s.setReg r v).llClean = s.llClean :=
  by unfold State.setReg; split <;> rfl
@[simp] theorem setReg_mem (r : Reg) (v : Word) : (s.setReg r v).mem = s.mem :=
  by unfold State.setReg; split <;> rfl
@[simp] theorem setReg_pending (r : Reg) (v : Word) : (s.setReg r v).pending = s.pending :=
  by unfold State.setReg; split <;> rfl
@[simp] theorem setReg_stored (r : Reg) (v : Word) : (s.setReg r v).stored = s.stored :=
  by unfold State.setReg; split <;> rfl
@[simp] theorem setReg_draws (r : Reg) (v : Word) : (s.setReg r v).draws = s.draws :=
  by unfold State.setReg; split <;> rfl
@[simp] theorem setReg_trap (r : Reg) (v : Word) : (s.setReg r v).trap = s.trap :=
  by unfold State.setReg; split <;> rfl

/-! ### `State.setVreg` -/

@[simp] theorem setVreg_params (k : VReg) (v : VecReg) : (s.setVreg k v).params = s.params :=
  by unfold State.setVreg; split <;> rfl
@[simp] theorem setVreg_regs (k : VReg) (v : VecReg) : (s.setVreg k v).regs = s.regs :=
  by unfold State.setVreg; split <;> rfl
@[simp] theorem setVreg_hi (k : VReg) (v : VecReg) : (s.setVreg k v).hi = s.hi :=
  by unfold State.setVreg; split <;> rfl
@[simp] theorem setVreg_lo (k : VReg) (v : VecReg) : (s.setVreg k v).lo = s.lo :=
  by unfold State.setVreg; split <;> rfl
@[simp] theorem setVreg_hiFromMul (k : VReg) (v : VecReg) : (s.setVreg k v).hiFromMul = s.hiFromMul :=
  by unfold State.setVreg; split <;> rfl
@[simp] theorem setVreg_loFromMul (k : VReg) (v : VecReg) : (s.setVreg k v).loFromMul = s.loFromMul :=
  by unfold State.setVreg; split <;> rfl
@[simp] theorem setVreg_pc (k : VReg) (v : VecReg) : (s.setVreg k v).pc = s.pc :=
  by unfold State.setVreg; split <;> rfl
@[simp] theorem setVreg_npc (k : VReg) (v : VecReg) : (s.setVreg k v).npc = s.npc :=
  by unfold State.setVreg; split <;> rfl
@[simp] theorem setVreg_slot (k : VReg) (v : VecReg) : (s.setVreg k v).slot = s.slot :=
  by unfold State.setVreg; split <;> rfl
@[simp] theorem setVreg_acrossTop (k : VReg) (v : VecReg) : (s.setVreg k v).acrossTop = s.acrossTop :=
  by unfold State.setVreg; split <;> rfl
@[simp] theorem setVreg_waits (k : VReg) (v : VecReg) : (s.setVreg k v).waits = s.waits :=
  by unfold State.setVreg; split <;> rfl
@[simp] theorem setVreg_vcount (k : VReg) (v : VecReg) : (s.setVreg k v).vcount = s.vcount :=
  by unfold State.setVreg; split <;> rfl
@[simp] theorem setVreg_vlr (k : VReg) (v : VecReg) : (s.setVreg k v).vlr = s.vlr :=
  by unfold State.setVreg; split <;> rfl
@[simp] theorem setVreg_vcond (k : VReg) (v : VecReg) : (s.setVreg k v).vcond = s.vcond :=
  by unfold State.setVreg; split <;> rfl
@[simp] theorem setVreg_vovf (k : VReg) (v : VecReg) : (s.setVreg k v).vovf = s.vovf :=
  by unfold State.setVreg; split <;> rfl
@[simp] theorem setVreg_vsat (k : VReg) (v : VecReg) : (s.setVreg k v).vsat = s.vsat :=
  by unfold State.setVreg; split <;> rfl
@[simp] theorem setVreg_cu2 (k : VReg) (v : VecReg) : (s.setVreg k v).cu2 = s.cu2 :=
  by unfold State.setVreg; split <;> rfl
@[simp] theorem setVreg_fpr (k : VReg) (v : VecReg) : (s.setVreg k v).fpr = s.fpr :=
  by unfold State.setVreg; split <;> rfl
@[simp] theorem setVreg_fcr0 (k : VReg) (v : VecReg) : (s.setVreg k v).fcr0 = s.fcr0 :=
  by unfold State.setVreg; split <;> rfl
@[simp] theorem setVreg_fcr31 (k : VReg) (v : VecReg) : (s.setVreg k v).fcr31 = s.fcr31 :=
  by unfold State.setVreg; split <;> rfl
@[simp] theorem setVreg_llBit (k : VReg) (v : VecReg) : (s.setVreg k v).llBit = s.llBit :=
  by unfold State.setVreg; split <;> rfl
@[simp] theorem setVreg_llAddr (k : VReg) (v : VecReg) : (s.setVreg k v).llAddr = s.llAddr :=
  by unfold State.setVreg; split <;> rfl
@[simp] theorem setVreg_llClean (k : VReg) (v : VecReg) : (s.setVreg k v).llClean = s.llClean :=
  by unfold State.setVreg; split <;> rfl
@[simp] theorem setVreg_mem (k : VReg) (v : VecReg) : (s.setVreg k v).mem = s.mem :=
  by unfold State.setVreg; split <;> rfl
@[simp] theorem setVreg_pending (k : VReg) (v : VecReg) : (s.setVreg k v).pending = s.pending :=
  by unfold State.setVreg; split <;> rfl
@[simp] theorem setVreg_stored (k : VReg) (v : VecReg) : (s.setVreg k v).stored = s.stored :=
  by unfold State.setVreg; split <;> rfl
@[simp] theorem setVreg_draws (k : VReg) (v : VecReg) : (s.setVreg k v).draws = s.draws :=
  by unfold State.setVreg; split <;> rfl
@[simp] theorem setVreg_trap (k : VReg) (v : VecReg) : (s.setVreg k v).trap = s.trap :=
  by unfold State.setVreg; split <;> rfl

/-! ### `State.setWaits` -/

@[simp] theorem setWaits_params (k : VReg) (n : Nat) (d : Waits) : (s.setWaits k n d).params = s.params :=
  by unfold State.setWaits; split <;> rfl
@[simp] theorem setWaits_regs (k : VReg) (n : Nat) (d : Waits) : (s.setWaits k n d).regs = s.regs :=
  by unfold State.setWaits; split <;> rfl
@[simp] theorem setWaits_hi (k : VReg) (n : Nat) (d : Waits) : (s.setWaits k n d).hi = s.hi :=
  by unfold State.setWaits; split <;> rfl
@[simp] theorem setWaits_lo (k : VReg) (n : Nat) (d : Waits) : (s.setWaits k n d).lo = s.lo :=
  by unfold State.setWaits; split <;> rfl
@[simp] theorem setWaits_hiFromMul (k : VReg) (n : Nat) (d : Waits) : (s.setWaits k n d).hiFromMul = s.hiFromMul :=
  by unfold State.setWaits; split <;> rfl
@[simp] theorem setWaits_loFromMul (k : VReg) (n : Nat) (d : Waits) : (s.setWaits k n d).loFromMul = s.loFromMul :=
  by unfold State.setWaits; split <;> rfl
@[simp] theorem setWaits_pc (k : VReg) (n : Nat) (d : Waits) : (s.setWaits k n d).pc = s.pc :=
  by unfold State.setWaits; split <;> rfl
@[simp] theorem setWaits_npc (k : VReg) (n : Nat) (d : Waits) : (s.setWaits k n d).npc = s.npc :=
  by unfold State.setWaits; split <;> rfl
@[simp] theorem setWaits_slot (k : VReg) (n : Nat) (d : Waits) : (s.setWaits k n d).slot = s.slot :=
  by unfold State.setWaits; split <;> rfl
@[simp] theorem setWaits_acrossTop (k : VReg) (n : Nat) (d : Waits) : (s.setWaits k n d).acrossTop = s.acrossTop :=
  by unfold State.setWaits; split <;> rfl
@[simp] theorem setWaits_vregs (k : VReg) (n : Nat) (d : Waits) : (s.setWaits k n d).vregs = s.vregs :=
  by unfold State.setWaits; split <;> rfl
@[simp] theorem setWaits_vcount (k : VReg) (n : Nat) (d : Waits) : (s.setWaits k n d).vcount = s.vcount :=
  by unfold State.setWaits; split <;> rfl
@[simp] theorem setWaits_vlr (k : VReg) (n : Nat) (d : Waits) : (s.setWaits k n d).vlr = s.vlr :=
  by unfold State.setWaits; split <;> rfl
@[simp] theorem setWaits_vcond (k : VReg) (n : Nat) (d : Waits) : (s.setWaits k n d).vcond = s.vcond :=
  by unfold State.setWaits; split <;> rfl
@[simp] theorem setWaits_vovf (k : VReg) (n : Nat) (d : Waits) : (s.setWaits k n d).vovf = s.vovf :=
  by unfold State.setWaits; split <;> rfl
@[simp] theorem setWaits_vsat (k : VReg) (n : Nat) (d : Waits) : (s.setWaits k n d).vsat = s.vsat :=
  by unfold State.setWaits; split <;> rfl
@[simp] theorem setWaits_cu2 (k : VReg) (n : Nat) (d : Waits) : (s.setWaits k n d).cu2 = s.cu2 :=
  by unfold State.setWaits; split <;> rfl
@[simp] theorem setWaits_fpr (k : VReg) (n : Nat) (d : Waits) : (s.setWaits k n d).fpr = s.fpr :=
  by unfold State.setWaits; split <;> rfl
@[simp] theorem setWaits_fcr0 (k : VReg) (n : Nat) (d : Waits) : (s.setWaits k n d).fcr0 = s.fcr0 :=
  by unfold State.setWaits; split <;> rfl
@[simp] theorem setWaits_fcr31 (k : VReg) (n : Nat) (d : Waits) : (s.setWaits k n d).fcr31 = s.fcr31 :=
  by unfold State.setWaits; split <;> rfl
@[simp] theorem setWaits_llBit (k : VReg) (n : Nat) (d : Waits) : (s.setWaits k n d).llBit = s.llBit :=
  by unfold State.setWaits; split <;> rfl
@[simp] theorem setWaits_llAddr (k : VReg) (n : Nat) (d : Waits) : (s.setWaits k n d).llAddr = s.llAddr :=
  by unfold State.setWaits; split <;> rfl
@[simp] theorem setWaits_llClean (k : VReg) (n : Nat) (d : Waits) : (s.setWaits k n d).llClean = s.llClean :=
  by unfold State.setWaits; split <;> rfl
@[simp] theorem setWaits_mem (k : VReg) (n : Nat) (d : Waits) : (s.setWaits k n d).mem = s.mem :=
  by unfold State.setWaits; split <;> rfl
@[simp] theorem setWaits_pending (k : VReg) (n : Nat) (d : Waits) : (s.setWaits k n d).pending = s.pending :=
  by unfold State.setWaits; split <;> rfl
@[simp] theorem setWaits_stored (k : VReg) (n : Nat) (d : Waits) : (s.setWaits k n d).stored = s.stored :=
  by unfold State.setWaits; split <;> rfl
@[simp] theorem setWaits_draws (k : VReg) (n : Nat) (d : Waits) : (s.setWaits k n d).draws = s.draws :=
  by unfold State.setWaits; split <;> rfl
@[simp] theorem setWaits_trap (k : VReg) (n : Nat) (d : Waits) : (s.setWaits k n d).trap = s.trap :=
  by unfold State.setWaits; split <;> rfl

/-! ### `State.setElemsWhere` -/

@[simp] theorem setElemsWhere_params (k : VReg) (n : Nat) (w : Elem → Bool) (f : Elem → Word) (d : Waits) : (s.setElemsWhere k n w f d).params = s.params :=
  by simp [State.setElemsWhere]
@[simp] theorem setElemsWhere_regs (k : VReg) (n : Nat) (w : Elem → Bool) (f : Elem → Word) (d : Waits) : (s.setElemsWhere k n w f d).regs = s.regs :=
  by simp [State.setElemsWhere]
@[simp] theorem setElemsWhere_hi (k : VReg) (n : Nat) (w : Elem → Bool) (f : Elem → Word) (d : Waits) : (s.setElemsWhere k n w f d).hi = s.hi :=
  by simp [State.setElemsWhere]
@[simp] theorem setElemsWhere_lo (k : VReg) (n : Nat) (w : Elem → Bool) (f : Elem → Word) (d : Waits) : (s.setElemsWhere k n w f d).lo = s.lo :=
  by simp [State.setElemsWhere]
@[simp] theorem setElemsWhere_hiFromMul (k : VReg) (n : Nat) (w : Elem → Bool) (f : Elem → Word) (d : Waits) : (s.setElemsWhere k n w f d).hiFromMul = s.hiFromMul :=
  by simp [State.setElemsWhere]
@[simp] theorem setElemsWhere_loFromMul (k : VReg) (n : Nat) (w : Elem → Bool) (f : Elem → Word) (d : Waits) : (s.setElemsWhere k n w f d).loFromMul = s.loFromMul :=
  by simp [State.setElemsWhere]
@[simp] theorem setElemsWhere_pc (k : VReg) (n : Nat) (w : Elem → Bool) (f : Elem → Word) (d : Waits) : (s.setElemsWhere k n w f d).pc = s.pc :=
  by simp [State.setElemsWhere]
@[simp] theorem setElemsWhere_npc (k : VReg) (n : Nat) (w : Elem → Bool) (f : Elem → Word) (d : Waits) : (s.setElemsWhere k n w f d).npc = s.npc :=
  by simp [State.setElemsWhere]
@[simp] theorem setElemsWhere_slot (k : VReg) (n : Nat) (w : Elem → Bool) (f : Elem → Word) (d : Waits) : (s.setElemsWhere k n w f d).slot = s.slot :=
  by simp [State.setElemsWhere]
@[simp] theorem setElemsWhere_acrossTop (k : VReg) (n : Nat) (w : Elem → Bool) (f : Elem → Word) (d : Waits) : (s.setElemsWhere k n w f d).acrossTop = s.acrossTop :=
  by simp [State.setElemsWhere]
@[simp] theorem setElemsWhere_vcount (k : VReg) (n : Nat) (w : Elem → Bool) (f : Elem → Word) (d : Waits) : (s.setElemsWhere k n w f d).vcount = s.vcount :=
  by simp [State.setElemsWhere]
@[simp] theorem setElemsWhere_vlr (k : VReg) (n : Nat) (w : Elem → Bool) (f : Elem → Word) (d : Waits) : (s.setElemsWhere k n w f d).vlr = s.vlr :=
  by simp [State.setElemsWhere]
@[simp] theorem setElemsWhere_vcond (k : VReg) (n : Nat) (w : Elem → Bool) (f : Elem → Word) (d : Waits) : (s.setElemsWhere k n w f d).vcond = s.vcond :=
  by simp [State.setElemsWhere]
@[simp] theorem setElemsWhere_vovf (k : VReg) (n : Nat) (w : Elem → Bool) (f : Elem → Word) (d : Waits) : (s.setElemsWhere k n w f d).vovf = s.vovf :=
  by simp [State.setElemsWhere]
@[simp] theorem setElemsWhere_vsat (k : VReg) (n : Nat) (w : Elem → Bool) (f : Elem → Word) (d : Waits) : (s.setElemsWhere k n w f d).vsat = s.vsat :=
  by simp [State.setElemsWhere]
@[simp] theorem setElemsWhere_cu2 (k : VReg) (n : Nat) (w : Elem → Bool) (f : Elem → Word) (d : Waits) : (s.setElemsWhere k n w f d).cu2 = s.cu2 :=
  by simp [State.setElemsWhere]
@[simp] theorem setElemsWhere_fpr (k : VReg) (n : Nat) (w : Elem → Bool) (f : Elem → Word) (d : Waits) : (s.setElemsWhere k n w f d).fpr = s.fpr :=
  by simp [State.setElemsWhere]
@[simp] theorem setElemsWhere_fcr0 (k : VReg) (n : Nat) (w : Elem → Bool) (f : Elem → Word) (d : Waits) : (s.setElemsWhere k n w f d).fcr0 = s.fcr0 :=
  by simp [State.setElemsWhere]
@[simp] theorem setElemsWhere_fcr31 (k : VReg) (n : Nat) (w : Elem → Bool) (f : Elem → Word) (d : Waits) : (s.setElemsWhere k n w f d).fcr31 = s.fcr31 :=
  by simp [State.setElemsWhere]
@[simp] theorem setElemsWhere_llBit (k : VReg) (n : Nat) (w : Elem → Bool) (f : Elem → Word) (d : Waits) : (s.setElemsWhere k n w f d).llBit = s.llBit :=
  by simp [State.setElemsWhere]
@[simp] theorem setElemsWhere_llAddr (k : VReg) (n : Nat) (w : Elem → Bool) (f : Elem → Word) (d : Waits) : (s.setElemsWhere k n w f d).llAddr = s.llAddr :=
  by simp [State.setElemsWhere]
@[simp] theorem setElemsWhere_llClean (k : VReg) (n : Nat) (w : Elem → Bool) (f : Elem → Word) (d : Waits) : (s.setElemsWhere k n w f d).llClean = s.llClean :=
  by simp [State.setElemsWhere]
@[simp] theorem setElemsWhere_mem (k : VReg) (n : Nat) (w : Elem → Bool) (f : Elem → Word) (d : Waits) : (s.setElemsWhere k n w f d).mem = s.mem :=
  by simp [State.setElemsWhere]
@[simp] theorem setElemsWhere_pending (k : VReg) (n : Nat) (w : Elem → Bool) (f : Elem → Word) (d : Waits) : (s.setElemsWhere k n w f d).pending = s.pending :=
  by simp [State.setElemsWhere]
@[simp] theorem setElemsWhere_stored (k : VReg) (n : Nat) (w : Elem → Bool) (f : Elem → Word) (d : Waits) : (s.setElemsWhere k n w f d).stored = s.stored :=
  by simp [State.setElemsWhere]
@[simp] theorem setElemsWhere_draws (k : VReg) (n : Nat) (w : Elem → Bool) (f : Elem → Word) (d : Waits) : (s.setElemsWhere k n w f d).draws = s.draws :=
  by simp [State.setElemsWhere]
@[simp] theorem setElemsWhere_trap (k : VReg) (n : Nat) (w : Elem → Bool) (f : Elem → Word) (d : Waits) : (s.setElemsWhere k n w f d).trap = s.trap :=
  by simp [State.setElemsWhere]

/-! ### `State.setElems` -/

@[simp] theorem setElems_params (k : VReg) (n : Nat) (f : Elem → Word) (d : Waits) : (s.setElems k n f d).params = s.params :=
  setElemsWhere_params s k n _ f d
@[simp] theorem setElems_regs (k : VReg) (n : Nat) (f : Elem → Word) (d : Waits) : (s.setElems k n f d).regs = s.regs :=
  setElemsWhere_regs s k n _ f d
@[simp] theorem setElems_hi (k : VReg) (n : Nat) (f : Elem → Word) (d : Waits) : (s.setElems k n f d).hi = s.hi :=
  setElemsWhere_hi s k n _ f d
@[simp] theorem setElems_lo (k : VReg) (n : Nat) (f : Elem → Word) (d : Waits) : (s.setElems k n f d).lo = s.lo :=
  setElemsWhere_lo s k n _ f d
@[simp] theorem setElems_hiFromMul (k : VReg) (n : Nat) (f : Elem → Word) (d : Waits) : (s.setElems k n f d).hiFromMul = s.hiFromMul :=
  setElemsWhere_hiFromMul s k n _ f d
@[simp] theorem setElems_loFromMul (k : VReg) (n : Nat) (f : Elem → Word) (d : Waits) : (s.setElems k n f d).loFromMul = s.loFromMul :=
  setElemsWhere_loFromMul s k n _ f d
@[simp] theorem setElems_pc (k : VReg) (n : Nat) (f : Elem → Word) (d : Waits) : (s.setElems k n f d).pc = s.pc :=
  setElemsWhere_pc s k n _ f d
@[simp] theorem setElems_npc (k : VReg) (n : Nat) (f : Elem → Word) (d : Waits) : (s.setElems k n f d).npc = s.npc :=
  setElemsWhere_npc s k n _ f d
@[simp] theorem setElems_slot (k : VReg) (n : Nat) (f : Elem → Word) (d : Waits) : (s.setElems k n f d).slot = s.slot :=
  setElemsWhere_slot s k n _ f d
@[simp] theorem setElems_acrossTop (k : VReg) (n : Nat) (f : Elem → Word) (d : Waits) : (s.setElems k n f d).acrossTop = s.acrossTop :=
  setElemsWhere_acrossTop s k n _ f d
@[simp] theorem setElems_vcount (k : VReg) (n : Nat) (f : Elem → Word) (d : Waits) : (s.setElems k n f d).vcount = s.vcount :=
  setElemsWhere_vcount s k n _ f d
@[simp] theorem setElems_vlr (k : VReg) (n : Nat) (f : Elem → Word) (d : Waits) : (s.setElems k n f d).vlr = s.vlr :=
  setElemsWhere_vlr s k n _ f d
@[simp] theorem setElems_vcond (k : VReg) (n : Nat) (f : Elem → Word) (d : Waits) : (s.setElems k n f d).vcond = s.vcond :=
  setElemsWhere_vcond s k n _ f d
@[simp] theorem setElems_vovf (k : VReg) (n : Nat) (f : Elem → Word) (d : Waits) : (s.setElems k n f d).vovf = s.vovf :=
  setElemsWhere_vovf s k n _ f d
@[simp] theorem setElems_vsat (k : VReg) (n : Nat) (f : Elem → Word) (d : Waits) : (s.setElems k n f d).vsat = s.vsat :=
  setElemsWhere_vsat s k n _ f d
@[simp] theorem setElems_cu2 (k : VReg) (n : Nat) (f : Elem → Word) (d : Waits) : (s.setElems k n f d).cu2 = s.cu2 :=
  setElemsWhere_cu2 s k n _ f d
@[simp] theorem setElems_fpr (k : VReg) (n : Nat) (f : Elem → Word) (d : Waits) : (s.setElems k n f d).fpr = s.fpr :=
  setElemsWhere_fpr s k n _ f d
@[simp] theorem setElems_fcr0 (k : VReg) (n : Nat) (f : Elem → Word) (d : Waits) : (s.setElems k n f d).fcr0 = s.fcr0 :=
  setElemsWhere_fcr0 s k n _ f d
@[simp] theorem setElems_fcr31 (k : VReg) (n : Nat) (f : Elem → Word) (d : Waits) : (s.setElems k n f d).fcr31 = s.fcr31 :=
  setElemsWhere_fcr31 s k n _ f d
@[simp] theorem setElems_llBit (k : VReg) (n : Nat) (f : Elem → Word) (d : Waits) : (s.setElems k n f d).llBit = s.llBit :=
  setElemsWhere_llBit s k n _ f d
@[simp] theorem setElems_llAddr (k : VReg) (n : Nat) (f : Elem → Word) (d : Waits) : (s.setElems k n f d).llAddr = s.llAddr :=
  setElemsWhere_llAddr s k n _ f d
@[simp] theorem setElems_llClean (k : VReg) (n : Nat) (f : Elem → Word) (d : Waits) : (s.setElems k n f d).llClean = s.llClean :=
  setElemsWhere_llClean s k n _ f d
@[simp] theorem setElems_mem (k : VReg) (n : Nat) (f : Elem → Word) (d : Waits) : (s.setElems k n f d).mem = s.mem :=
  setElemsWhere_mem s k n _ f d
@[simp] theorem setElems_pending (k : VReg) (n : Nat) (f : Elem → Word) (d : Waits) : (s.setElems k n f d).pending = s.pending :=
  setElemsWhere_pending s k n _ f d
@[simp] theorem setElems_stored (k : VReg) (n : Nat) (f : Elem → Word) (d : Waits) : (s.setElems k n f d).stored = s.stored :=
  setElemsWhere_stored s k n _ f d
@[simp] theorem setElems_draws (k : VReg) (n : Nat) (f : Elem → Word) (d : Waits) : (s.setElems k n f d).draws = s.draws :=
  setElemsWhere_draws s k n _ f d
@[simp] theorem setElems_trap (k : VReg) (n : Nat) (f : Elem → Word) (d : Waits) : (s.setElems k n f d).trap = s.trap :=
  setElemsWhere_trap s k n _ f d

/-! ### `State.setFgr` -/

@[simp] theorem setFgr_params (r : Reg) (v : Word) : (s.setFgr r v).params = s.params := rfl
@[simp] theorem setFgr_regs (r : Reg) (v : Word) : (s.setFgr r v).regs = s.regs := rfl
@[simp] theorem setFgr_hi (r : Reg) (v : Word) : (s.setFgr r v).hi = s.hi := rfl
@[simp] theorem setFgr_lo (r : Reg) (v : Word) : (s.setFgr r v).lo = s.lo := rfl
@[simp] theorem setFgr_hiFromMul (r : Reg) (v : Word) : (s.setFgr r v).hiFromMul = s.hiFromMul :=
  rfl
@[simp] theorem setFgr_loFromMul (r : Reg) (v : Word) : (s.setFgr r v).loFromMul = s.loFromMul :=
  rfl
@[simp] theorem setFgr_pc (r : Reg) (v : Word) : (s.setFgr r v).pc = s.pc := rfl
@[simp] theorem setFgr_npc (r : Reg) (v : Word) : (s.setFgr r v).npc = s.npc := rfl
@[simp] theorem setFgr_slot (r : Reg) (v : Word) : (s.setFgr r v).slot = s.slot := rfl
@[simp] theorem setFgr_acrossTop (r : Reg) (v : Word) : (s.setFgr r v).acrossTop = s.acrossTop :=
  rfl
@[simp] theorem setFgr_vregs (r : Reg) (v : Word) : (s.setFgr r v).vregs = s.vregs := rfl
@[simp] theorem setFgr_waits (r : Reg) (v : Word) : (s.setFgr r v).waits = s.waits := rfl
@[simp] theorem setFgr_vcount (r : Reg) (v : Word) : (s.setFgr r v).vcount = s.vcount := rfl
@[simp] theorem setFgr_vlr (r : Reg) (v : Word) : (s.setFgr r v).vlr = s.vlr := rfl
@[simp] theorem setFgr_vcond (r : Reg) (v : Word) : (s.setFgr r v).vcond = s.vcond := rfl
@[simp] theorem setFgr_vovf (r : Reg) (v : Word) : (s.setFgr r v).vovf = s.vovf := rfl
@[simp] theorem setFgr_vsat (r : Reg) (v : Word) : (s.setFgr r v).vsat = s.vsat := rfl
@[simp] theorem setFgr_cu2 (r : Reg) (v : Word) : (s.setFgr r v).cu2 = s.cu2 := rfl
@[simp] theorem setFgr_fcr0 (r : Reg) (v : Word) : (s.setFgr r v).fcr0 = s.fcr0 := rfl
@[simp] theorem setFgr_fcr31 (r : Reg) (v : Word) : (s.setFgr r v).fcr31 = s.fcr31 := rfl
@[simp] theorem setFgr_llBit (r : Reg) (v : Word) : (s.setFgr r v).llBit = s.llBit := rfl
@[simp] theorem setFgr_llAddr (r : Reg) (v : Word) : (s.setFgr r v).llAddr = s.llAddr := rfl
@[simp] theorem setFgr_llClean (r : Reg) (v : Word) : (s.setFgr r v).llClean = s.llClean := rfl
@[simp] theorem setFgr_mem (r : Reg) (v : Word) : (s.setFgr r v).mem = s.mem := rfl
@[simp] theorem setFgr_pending (r : Reg) (v : Word) : (s.setFgr r v).pending = s.pending := rfl
@[simp] theorem setFgr_stored (r : Reg) (v : Word) : (s.setFgr r v).stored = s.stored := rfl
@[simp] theorem setFgr_draws (r : Reg) (v : Word) : (s.setFgr r v).draws = s.draws := rfl
@[simp] theorem setFgr_trap (r : Reg) (v : Word) : (s.setFgr r v).trap = s.trap := rfl

/-! ### `State.setFcr` -/

@[simp] theorem setFcr_params (r : Reg) (v : Word) : (s.setFcr r v).params = s.params :=
  by unfold State.setFcr; split <;> rfl
@[simp] theorem setFcr_regs (r : Reg) (v : Word) : (s.setFcr r v).regs = s.regs :=
  by unfold State.setFcr; split <;> rfl
@[simp] theorem setFcr_hi (r : Reg) (v : Word) : (s.setFcr r v).hi = s.hi :=
  by unfold State.setFcr; split <;> rfl
@[simp] theorem setFcr_lo (r : Reg) (v : Word) : (s.setFcr r v).lo = s.lo :=
  by unfold State.setFcr; split <;> rfl
@[simp] theorem setFcr_hiFromMul (r : Reg) (v : Word) : (s.setFcr r v).hiFromMul = s.hiFromMul :=
  by unfold State.setFcr; split <;> rfl
@[simp] theorem setFcr_loFromMul (r : Reg) (v : Word) : (s.setFcr r v).loFromMul = s.loFromMul :=
  by unfold State.setFcr; split <;> rfl
@[simp] theorem setFcr_pc (r : Reg) (v : Word) : (s.setFcr r v).pc = s.pc :=
  by unfold State.setFcr; split <;> rfl
@[simp] theorem setFcr_npc (r : Reg) (v : Word) : (s.setFcr r v).npc = s.npc :=
  by unfold State.setFcr; split <;> rfl
@[simp] theorem setFcr_slot (r : Reg) (v : Word) : (s.setFcr r v).slot = s.slot :=
  by unfold State.setFcr; split <;> rfl
@[simp] theorem setFcr_acrossTop (r : Reg) (v : Word) : (s.setFcr r v).acrossTop = s.acrossTop :=
  by unfold State.setFcr; split <;> rfl
@[simp] theorem setFcr_vregs (r : Reg) (v : Word) : (s.setFcr r v).vregs = s.vregs :=
  by unfold State.setFcr; split <;> rfl
@[simp] theorem setFcr_waits (r : Reg) (v : Word) : (s.setFcr r v).waits = s.waits :=
  by unfold State.setFcr; split <;> rfl
@[simp] theorem setFcr_vcount (r : Reg) (v : Word) : (s.setFcr r v).vcount = s.vcount :=
  by unfold State.setFcr; split <;> rfl
@[simp] theorem setFcr_vlr (r : Reg) (v : Word) : (s.setFcr r v).vlr = s.vlr :=
  by unfold State.setFcr; split <;> rfl
@[simp] theorem setFcr_vcond (r : Reg) (v : Word) : (s.setFcr r v).vcond = s.vcond :=
  by unfold State.setFcr; split <;> rfl
@[simp] theorem setFcr_vovf (r : Reg) (v : Word) : (s.setFcr r v).vovf = s.vovf :=
  by unfold State.setFcr; split <;> rfl
@[simp] theorem setFcr_vsat (r : Reg) (v : Word) : (s.setFcr r v).vsat = s.vsat :=
  by unfold State.setFcr; split <;> rfl
@[simp] theorem setFcr_cu2 (r : Reg) (v : Word) : (s.setFcr r v).cu2 = s.cu2 :=
  by unfold State.setFcr; split <;> rfl
@[simp] theorem setFcr_fpr (r : Reg) (v : Word) : (s.setFcr r v).fpr = s.fpr :=
  by unfold State.setFcr; split <;> rfl
@[simp] theorem setFcr_fcr0 (r : Reg) (v : Word) : (s.setFcr r v).fcr0 = s.fcr0 :=
  by unfold State.setFcr; split <;> rfl
@[simp] theorem setFcr_llBit (r : Reg) (v : Word) : (s.setFcr r v).llBit = s.llBit :=
  by unfold State.setFcr; split <;> rfl
@[simp] theorem setFcr_llAddr (r : Reg) (v : Word) : (s.setFcr r v).llAddr = s.llAddr :=
  by unfold State.setFcr; split <;> rfl
@[simp] theorem setFcr_llClean (r : Reg) (v : Word) : (s.setFcr r v).llClean = s.llClean :=
  by unfold State.setFcr; split <;> rfl
@[simp] theorem setFcr_mem (r : Reg) (v : Word) : (s.setFcr r v).mem = s.mem :=
  by unfold State.setFcr; split <;> rfl
@[simp] theorem setFcr_pending (r : Reg) (v : Word) : (s.setFcr r v).pending = s.pending :=
  by unfold State.setFcr; split <;> rfl
@[simp] theorem setFcr_stored (r : Reg) (v : Word) : (s.setFcr r v).stored = s.stored :=
  by unfold State.setFcr; split <;> rfl
@[simp] theorem setFcr_draws (r : Reg) (v : Word) : (s.setFcr r v).draws = s.draws :=
  by unfold State.setFcr; split <;> rfl
@[simp] theorem setFcr_trap (r : Reg) (v : Word) : (s.setFcr r v).trap = s.trap :=
  by unfold State.setFcr; split <;> rfl

/-! ### `State.advance` -/

@[simp] theorem advance_params : (s.advance).params = s.params := rfl
@[simp] theorem advance_regs : (s.advance).regs = s.regs := rfl
@[simp] theorem advance_hi : (s.advance).hi = s.hi := rfl
@[simp] theorem advance_lo : (s.advance).lo = s.lo := rfl
@[simp] theorem advance_hiFromMul : (s.advance).hiFromMul = s.hiFromMul := rfl
@[simp] theorem advance_loFromMul : (s.advance).loFromMul = s.loFromMul := rfl
@[simp] theorem advance_pc : (s.advance).pc = s.npc := rfl
@[simp] theorem advance_npc : (s.advance).npc = s.npc + 4 := rfl
@[simp] theorem advance_slot : (s.advance).slot = none := rfl
@[simp] theorem advance_acrossTop : (s.advance).acrossTop = (s.pc == topPc && !s.inTakenSlot) := rfl
@[simp] theorem advance_vregs : (s.advance).vregs = s.vregs := rfl
@[simp] theorem advance_waits : (s.advance).waits = s.waits := rfl
@[simp] theorem advance_vcount : (s.advance).vcount = s.vcount := rfl
@[simp] theorem advance_vlr : (s.advance).vlr = s.vlr := rfl
@[simp] theorem advance_vcond : (s.advance).vcond = s.vcond := rfl
@[simp] theorem advance_vovf : (s.advance).vovf = s.vovf := rfl
@[simp] theorem advance_vsat : (s.advance).vsat = s.vsat := rfl
@[simp] theorem advance_cu2 : (s.advance).cu2 = s.cu2 := rfl
@[simp] theorem advance_fpr : (s.advance).fpr = s.fpr := rfl
@[simp] theorem advance_fcr0 : (s.advance).fcr0 = s.fcr0 := rfl
@[simp] theorem advance_fcr31 : (s.advance).fcr31 = s.fcr31 := rfl
@[simp] theorem advance_llBit : (s.advance).llBit = s.llBit := rfl
@[simp] theorem advance_llAddr : (s.advance).llAddr = s.llAddr := rfl
@[simp] theorem advance_llClean : (s.advance).llClean = s.llClean := rfl
@[simp] theorem advance_mem : (s.advance).mem = s.mem := rfl
@[simp] theorem advance_pending : (s.advance).pending = s.pending := rfl
@[simp] theorem advance_stored : (s.advance).stored = s.stored := rfl
@[simp] theorem advance_draws : (s.advance).draws = s.draws := rfl
@[simp] theorem advance_trap : (s.advance).trap = s.trap := rfl

/-! ### `State.takeBranch` -/

@[simp] theorem takeBranch_params (a : Word) : (s.takeBranch a).params = s.params := rfl
@[simp] theorem takeBranch_regs (a : Word) : (s.takeBranch a).regs = s.regs := rfl
@[simp] theorem takeBranch_hi (a : Word) : (s.takeBranch a).hi = s.hi := rfl
@[simp] theorem takeBranch_lo (a : Word) : (s.takeBranch a).lo = s.lo := rfl
@[simp] theorem takeBranch_hiFromMul (a : Word) : (s.takeBranch a).hiFromMul = s.hiFromMul := rfl
@[simp] theorem takeBranch_loFromMul (a : Word) : (s.takeBranch a).loFromMul = s.loFromMul := rfl
@[simp] theorem takeBranch_pc (a : Word) : (s.takeBranch a).pc = s.npc := rfl
@[simp] theorem takeBranch_npc (a : Word) : (s.takeBranch a).npc = a := rfl
@[simp] theorem takeBranch_slot (a : Word) : (s.takeBranch a).slot = some ⟨s.pc, true⟩ := rfl
@[simp] theorem takeBranch_acrossTop (a : Word) : (s.takeBranch a).acrossTop = (s.pc == topPc) := rfl
@[simp] theorem takeBranch_vregs (a : Word) : (s.takeBranch a).vregs = s.vregs := rfl
@[simp] theorem takeBranch_waits (a : Word) : (s.takeBranch a).waits = s.waits := rfl
@[simp] theorem takeBranch_vcount (a : Word) : (s.takeBranch a).vcount = s.vcount := rfl
@[simp] theorem takeBranch_vlr (a : Word) : (s.takeBranch a).vlr = s.vlr := rfl
@[simp] theorem takeBranch_vcond (a : Word) : (s.takeBranch a).vcond = s.vcond := rfl
@[simp] theorem takeBranch_vovf (a : Word) : (s.takeBranch a).vovf = s.vovf := rfl
@[simp] theorem takeBranch_vsat (a : Word) : (s.takeBranch a).vsat = s.vsat := rfl
@[simp] theorem takeBranch_cu2 (a : Word) : (s.takeBranch a).cu2 = s.cu2 := rfl
@[simp] theorem takeBranch_fpr (a : Word) : (s.takeBranch a).fpr = s.fpr := rfl
@[simp] theorem takeBranch_fcr0 (a : Word) : (s.takeBranch a).fcr0 = s.fcr0 := rfl
@[simp] theorem takeBranch_fcr31 (a : Word) : (s.takeBranch a).fcr31 = s.fcr31 := rfl
@[simp] theorem takeBranch_llBit (a : Word) : (s.takeBranch a).llBit = s.llBit := rfl
@[simp] theorem takeBranch_llAddr (a : Word) : (s.takeBranch a).llAddr = s.llAddr := rfl
@[simp] theorem takeBranch_llClean (a : Word) : (s.takeBranch a).llClean = s.llClean := rfl
@[simp] theorem takeBranch_mem (a : Word) : (s.takeBranch a).mem = s.mem := rfl
@[simp] theorem takeBranch_pending (a : Word) : (s.takeBranch a).pending = s.pending := rfl
@[simp] theorem takeBranch_stored (a : Word) : (s.takeBranch a).stored = s.stored := rfl
@[simp] theorem takeBranch_draws (a : Word) : (s.takeBranch a).draws = s.draws := rfl
@[simp] theorem takeBranch_trap (a : Word) : (s.takeBranch a).trap = s.trap := rfl

/-! ### `State.passBranch` -/

@[simp] theorem passBranch_params : (s.passBranch).params = s.params := rfl
@[simp] theorem passBranch_regs : (s.passBranch).regs = s.regs := rfl
@[simp] theorem passBranch_hi : (s.passBranch).hi = s.hi := rfl
@[simp] theorem passBranch_lo : (s.passBranch).lo = s.lo := rfl
@[simp] theorem passBranch_hiFromMul : (s.passBranch).hiFromMul = s.hiFromMul := rfl
@[simp] theorem passBranch_loFromMul : (s.passBranch).loFromMul = s.loFromMul := rfl
@[simp] theorem passBranch_pc : (s.passBranch).pc = s.npc := rfl
@[simp] theorem passBranch_npc : (s.passBranch).npc = s.npc + 4 := rfl
@[simp] theorem passBranch_slot : (s.passBranch).slot = some ⟨s.pc, false⟩ := rfl
@[simp] theorem passBranch_acrossTop : (s.passBranch).acrossTop = (s.pc == topPc) := rfl
@[simp] theorem passBranch_vregs : (s.passBranch).vregs = s.vregs := rfl
@[simp] theorem passBranch_waits : (s.passBranch).waits = s.waits := rfl
@[simp] theorem passBranch_vcount : (s.passBranch).vcount = s.vcount := rfl
@[simp] theorem passBranch_vlr : (s.passBranch).vlr = s.vlr := rfl
@[simp] theorem passBranch_vcond : (s.passBranch).vcond = s.vcond := rfl
@[simp] theorem passBranch_vovf : (s.passBranch).vovf = s.vovf := rfl
@[simp] theorem passBranch_vsat : (s.passBranch).vsat = s.vsat := rfl
@[simp] theorem passBranch_cu2 : (s.passBranch).cu2 = s.cu2 := rfl
@[simp] theorem passBranch_fpr : (s.passBranch).fpr = s.fpr := rfl
@[simp] theorem passBranch_fcr0 : (s.passBranch).fcr0 = s.fcr0 := rfl
@[simp] theorem passBranch_fcr31 : (s.passBranch).fcr31 = s.fcr31 := rfl
@[simp] theorem passBranch_llBit : (s.passBranch).llBit = s.llBit := rfl
@[simp] theorem passBranch_llAddr : (s.passBranch).llAddr = s.llAddr := rfl
@[simp] theorem passBranch_llClean : (s.passBranch).llClean = s.llClean := rfl
@[simp] theorem passBranch_mem : (s.passBranch).mem = s.mem := rfl
@[simp] theorem passBranch_pending : (s.passBranch).pending = s.pending := rfl
@[simp] theorem passBranch_stored : (s.passBranch).stored = s.stored := rfl
@[simp] theorem passBranch_draws : (s.passBranch).draws = s.draws := rfl
@[simp] theorem passBranch_trap : (s.passBranch).trap = s.trap := rfl

/-! ### `State.nullifySlot` -/

@[simp] theorem nullifySlot_params : (s.nullifySlot).params = s.params := rfl
@[simp] theorem nullifySlot_regs : (s.nullifySlot).regs = s.regs := rfl
@[simp] theorem nullifySlot_hi : (s.nullifySlot).hi = s.hi := rfl
@[simp] theorem nullifySlot_lo : (s.nullifySlot).lo = s.lo := rfl
@[simp] theorem nullifySlot_hiFromMul : (s.nullifySlot).hiFromMul = s.hiFromMul := rfl
@[simp] theorem nullifySlot_loFromMul : (s.nullifySlot).loFromMul = s.loFromMul := rfl
@[simp] theorem nullifySlot_pc : (s.nullifySlot).pc = s.npc + 4 := rfl
@[simp] theorem nullifySlot_npc : (s.nullifySlot).npc = s.npc + 8 := rfl
@[simp] theorem nullifySlot_slot : (s.nullifySlot).slot = none := rfl
@[simp] theorem nullifySlot_acrossTop : (s.nullifySlot).acrossTop = (s.pc == topPc || s.pc == topPc - 4) := rfl
@[simp] theorem nullifySlot_vregs : (s.nullifySlot).vregs = s.vregs := rfl
@[simp] theorem nullifySlot_waits : (s.nullifySlot).waits = s.waits := rfl
@[simp] theorem nullifySlot_vcount : (s.nullifySlot).vcount = s.vcount := rfl
@[simp] theorem nullifySlot_vlr : (s.nullifySlot).vlr = s.vlr := rfl
@[simp] theorem nullifySlot_vcond : (s.nullifySlot).vcond = s.vcond := rfl
@[simp] theorem nullifySlot_vovf : (s.nullifySlot).vovf = s.vovf := rfl
@[simp] theorem nullifySlot_vsat : (s.nullifySlot).vsat = s.vsat := rfl
@[simp] theorem nullifySlot_cu2 : (s.nullifySlot).cu2 = s.cu2 := rfl
@[simp] theorem nullifySlot_fpr : (s.nullifySlot).fpr = s.fpr := rfl
@[simp] theorem nullifySlot_fcr0 : (s.nullifySlot).fcr0 = s.fcr0 := rfl
@[simp] theorem nullifySlot_fcr31 : (s.nullifySlot).fcr31 = s.fcr31 := rfl
@[simp] theorem nullifySlot_llBit : (s.nullifySlot).llBit = s.llBit := rfl
@[simp] theorem nullifySlot_llAddr : (s.nullifySlot).llAddr = s.llAddr := rfl
@[simp] theorem nullifySlot_llClean : (s.nullifySlot).llClean = s.llClean := rfl
@[simp] theorem nullifySlot_mem : (s.nullifySlot).mem = s.mem := rfl
@[simp] theorem nullifySlot_pending : (s.nullifySlot).pending = s.pending := rfl
@[simp] theorem nullifySlot_stored : (s.nullifySlot).stored = s.stored := rfl
@[simp] theorem nullifySlot_draws : (s.nullifySlot).draws = s.draws := rfl
@[simp] theorem nullifySlot_trap : (s.nullifySlot).trap = s.trap := rfl

/-! ### `State.consume` -/

@[simp] theorem consume_params (n : Nat) : (s.consume n).params = s.params := rfl
@[simp] theorem consume_regs (n : Nat) : (s.consume n).regs = s.regs := rfl
@[simp] theorem consume_hi (n : Nat) : (s.consume n).hi = s.hi := rfl
@[simp] theorem consume_lo (n : Nat) : (s.consume n).lo = s.lo := rfl
@[simp] theorem consume_hiFromMul (n : Nat) : (s.consume n).hiFromMul = s.hiFromMul := rfl
@[simp] theorem consume_loFromMul (n : Nat) : (s.consume n).loFromMul = s.loFromMul := rfl
@[simp] theorem consume_pc (n : Nat) : (s.consume n).pc = s.pc := rfl
@[simp] theorem consume_npc (n : Nat) : (s.consume n).npc = s.npc := rfl
@[simp] theorem consume_slot (n : Nat) : (s.consume n).slot = s.slot := rfl
@[simp] theorem consume_acrossTop (n : Nat) : (s.consume n).acrossTop = s.acrossTop := rfl
@[simp] theorem consume_vregs (n : Nat) : (s.consume n).vregs = s.vregs := rfl
@[simp] theorem consume_waits (n : Nat) : (s.consume n).waits = s.waits := rfl
@[simp] theorem consume_vcount (n : Nat) : (s.consume n).vcount = s.vcount := rfl
@[simp] theorem consume_vlr (n : Nat) : (s.consume n).vlr = s.vlr := rfl
@[simp] theorem consume_vcond (n : Nat) : (s.consume n).vcond = s.vcond := rfl
@[simp] theorem consume_vovf (n : Nat) : (s.consume n).vovf = s.vovf := rfl
@[simp] theorem consume_vsat (n : Nat) : (s.consume n).vsat = s.vsat := rfl
@[simp] theorem consume_cu2 (n : Nat) : (s.consume n).cu2 = s.cu2 := rfl
@[simp] theorem consume_fpr (n : Nat) : (s.consume n).fpr = s.fpr := rfl
@[simp] theorem consume_fcr0 (n : Nat) : (s.consume n).fcr0 = s.fcr0 := rfl
@[simp] theorem consume_fcr31 (n : Nat) : (s.consume n).fcr31 = s.fcr31 := rfl
@[simp] theorem consume_llBit (n : Nat) : (s.consume n).llBit = s.llBit := rfl
@[simp] theorem consume_llAddr (n : Nat) : (s.consume n).llAddr = s.llAddr := rfl
@[simp] theorem consume_llClean (n : Nat) : (s.consume n).llClean = s.llClean := rfl
@[simp] theorem consume_mem (n : Nat) : (s.consume n).mem = s.mem := rfl
@[simp] theorem consume_pending (n : Nat) : (s.consume n).pending = s.pending := rfl
@[simp] theorem consume_stored (n : Nat) : (s.consume n).stored = s.stored := rfl
@[simp] theorem consume_draws (n : Nat) : (s.consume n).draws = s.draws + n := rfl
@[simp] theorem consume_trap (n : Nat) : (s.consume n).trap = s.trap := rfl

/-! ### `State.orVovf` -/

@[simp] theorem orVovf_params (n : Nat) (p : Elem → Bool) : (s.orVovf n p).params = s.params := rfl
@[simp] theorem orVovf_regs (n : Nat) (p : Elem → Bool) : (s.orVovf n p).regs = s.regs := rfl
@[simp] theorem orVovf_hi (n : Nat) (p : Elem → Bool) : (s.orVovf n p).hi = s.hi := rfl
@[simp] theorem orVovf_lo (n : Nat) (p : Elem → Bool) : (s.orVovf n p).lo = s.lo := rfl
@[simp] theorem orVovf_hiFromMul (n : Nat) (p : Elem → Bool) : (s.orVovf n p).hiFromMul = s.hiFromMul :=
  rfl
@[simp] theorem orVovf_loFromMul (n : Nat) (p : Elem → Bool) : (s.orVovf n p).loFromMul = s.loFromMul :=
  rfl
@[simp] theorem orVovf_pc (n : Nat) (p : Elem → Bool) : (s.orVovf n p).pc = s.pc := rfl
@[simp] theorem orVovf_npc (n : Nat) (p : Elem → Bool) : (s.orVovf n p).npc = s.npc := rfl
@[simp] theorem orVovf_slot (n : Nat) (p : Elem → Bool) : (s.orVovf n p).slot = s.slot := rfl
@[simp] theorem orVovf_acrossTop (n : Nat) (p : Elem → Bool) : (s.orVovf n p).acrossTop = s.acrossTop :=
  rfl
@[simp] theorem orVovf_vregs (n : Nat) (p : Elem → Bool) : (s.orVovf n p).vregs = s.vregs := rfl
@[simp] theorem orVovf_waits (n : Nat) (p : Elem → Bool) : (s.orVovf n p).waits = s.waits := rfl
@[simp] theorem orVovf_vcount (n : Nat) (p : Elem → Bool) : (s.orVovf n p).vcount = s.vcount := rfl
@[simp] theorem orVovf_vlr (n : Nat) (p : Elem → Bool) : (s.orVovf n p).vlr = s.vlr := rfl
@[simp] theorem orVovf_vcond (n : Nat) (p : Elem → Bool) : (s.orVovf n p).vcond = s.vcond := rfl
@[simp] theorem orVovf_vovf (n : Nat) (p : Elem → Bool) : (s.orVovf n p).vovf = sticky s.vovf n p := rfl
@[simp] theorem orVovf_vsat (n : Nat) (p : Elem → Bool) : (s.orVovf n p).vsat = s.vsat := rfl
@[simp] theorem orVovf_cu2 (n : Nat) (p : Elem → Bool) : (s.orVovf n p).cu2 = s.cu2 := rfl
@[simp] theorem orVovf_fpr (n : Nat) (p : Elem → Bool) : (s.orVovf n p).fpr = s.fpr := rfl
@[simp] theorem orVovf_fcr0 (n : Nat) (p : Elem → Bool) : (s.orVovf n p).fcr0 = s.fcr0 := rfl
@[simp] theorem orVovf_fcr31 (n : Nat) (p : Elem → Bool) : (s.orVovf n p).fcr31 = s.fcr31 := rfl
@[simp] theorem orVovf_llBit (n : Nat) (p : Elem → Bool) : (s.orVovf n p).llBit = s.llBit := rfl
@[simp] theorem orVovf_llAddr (n : Nat) (p : Elem → Bool) : (s.orVovf n p).llAddr = s.llAddr := rfl
@[simp] theorem orVovf_llClean (n : Nat) (p : Elem → Bool) : (s.orVovf n p).llClean = s.llClean :=
  rfl
@[simp] theorem orVovf_mem (n : Nat) (p : Elem → Bool) : (s.orVovf n p).mem = s.mem := rfl
@[simp] theorem orVovf_pending (n : Nat) (p : Elem → Bool) : (s.orVovf n p).pending = s.pending :=
  rfl
@[simp] theorem orVovf_stored (n : Nat) (p : Elem → Bool) : (s.orVovf n p).stored = s.stored := rfl
@[simp] theorem orVovf_draws (n : Nat) (p : Elem → Bool) : (s.orVovf n p).draws = s.draws := rfl
@[simp] theorem orVovf_trap (n : Nat) (p : Elem → Bool) : (s.orVovf n p).trap = s.trap := rfl

/-! ### `State.orVsat` -/

@[simp] theorem orVsat_params (n : Nat) (p : Elem → Bool) : (s.orVsat n p).params = s.params := rfl
@[simp] theorem orVsat_regs (n : Nat) (p : Elem → Bool) : (s.orVsat n p).regs = s.regs := rfl
@[simp] theorem orVsat_hi (n : Nat) (p : Elem → Bool) : (s.orVsat n p).hi = s.hi := rfl
@[simp] theorem orVsat_lo (n : Nat) (p : Elem → Bool) : (s.orVsat n p).lo = s.lo := rfl
@[simp] theorem orVsat_hiFromMul (n : Nat) (p : Elem → Bool) : (s.orVsat n p).hiFromMul = s.hiFromMul :=
  rfl
@[simp] theorem orVsat_loFromMul (n : Nat) (p : Elem → Bool) : (s.orVsat n p).loFromMul = s.loFromMul :=
  rfl
@[simp] theorem orVsat_pc (n : Nat) (p : Elem → Bool) : (s.orVsat n p).pc = s.pc := rfl
@[simp] theorem orVsat_npc (n : Nat) (p : Elem → Bool) : (s.orVsat n p).npc = s.npc := rfl
@[simp] theorem orVsat_slot (n : Nat) (p : Elem → Bool) : (s.orVsat n p).slot = s.slot := rfl
@[simp] theorem orVsat_acrossTop (n : Nat) (p : Elem → Bool) : (s.orVsat n p).acrossTop = s.acrossTop :=
  rfl
@[simp] theorem orVsat_vregs (n : Nat) (p : Elem → Bool) : (s.orVsat n p).vregs = s.vregs := rfl
@[simp] theorem orVsat_waits (n : Nat) (p : Elem → Bool) : (s.orVsat n p).waits = s.waits := rfl
@[simp] theorem orVsat_vcount (n : Nat) (p : Elem → Bool) : (s.orVsat n p).vcount = s.vcount := rfl
@[simp] theorem orVsat_vlr (n : Nat) (p : Elem → Bool) : (s.orVsat n p).vlr = s.vlr := rfl
@[simp] theorem orVsat_vcond (n : Nat) (p : Elem → Bool) : (s.orVsat n p).vcond = s.vcond := rfl
@[simp] theorem orVsat_vovf (n : Nat) (p : Elem → Bool) : (s.orVsat n p).vovf = s.vovf := rfl
@[simp] theorem orVsat_vsat (n : Nat) (p : Elem → Bool) : (s.orVsat n p).vsat = sticky s.vsat n p := rfl
@[simp] theorem orVsat_cu2 (n : Nat) (p : Elem → Bool) : (s.orVsat n p).cu2 = s.cu2 := rfl
@[simp] theorem orVsat_fpr (n : Nat) (p : Elem → Bool) : (s.orVsat n p).fpr = s.fpr := rfl
@[simp] theorem orVsat_fcr0 (n : Nat) (p : Elem → Bool) : (s.orVsat n p).fcr0 = s.fcr0 := rfl
@[simp] theorem orVsat_fcr31 (n : Nat) (p : Elem → Bool) : (s.orVsat n p).fcr31 = s.fcr31 := rfl
@[simp] theorem orVsat_llBit (n : Nat) (p : Elem → Bool) : (s.orVsat n p).llBit = s.llBit := rfl
@[simp] theorem orVsat_llAddr (n : Nat) (p : Elem → Bool) : (s.orVsat n p).llAddr = s.llAddr := rfl
@[simp] theorem orVsat_llClean (n : Nat) (p : Elem → Bool) : (s.orVsat n p).llClean = s.llClean :=
  rfl
@[simp] theorem orVsat_mem (n : Nat) (p : Elem → Bool) : (s.orVsat n p).mem = s.mem := rfl
@[simp] theorem orVsat_pending (n : Nat) (p : Elem → Bool) : (s.orVsat n p).pending = s.pending :=
  rfl
@[simp] theorem orVsat_stored (n : Nat) (p : Elem → Bool) : (s.orVsat n p).stored = s.stored := rfl
@[simp] theorem orVsat_draws (n : Nat) (p : Elem → Bool) : (s.orVsat n p).draws = s.draws := rfl
@[simp] theorem orVsat_trap (n : Nat) (p : Elem → Bool) : (s.orVsat n p).trap = s.trap := rfl

/-! ### `State.putVcond` -/

@[simp] theorem putVcond_params (n : Nat) (p : Elem → Bool) : (s.putVcond n p).params = s.params :=
  rfl
@[simp] theorem putVcond_regs (n : Nat) (p : Elem → Bool) : (s.putVcond n p).regs = s.regs := rfl
@[simp] theorem putVcond_hi (n : Nat) (p : Elem → Bool) : (s.putVcond n p).hi = s.hi := rfl
@[simp] theorem putVcond_lo (n : Nat) (p : Elem → Bool) : (s.putVcond n p).lo = s.lo := rfl
@[simp] theorem putVcond_hiFromMul (n : Nat) (p : Elem → Bool) : (s.putVcond n p).hiFromMul = s.hiFromMul :=
  rfl
@[simp] theorem putVcond_loFromMul (n : Nat) (p : Elem → Bool) : (s.putVcond n p).loFromMul = s.loFromMul :=
  rfl
@[simp] theorem putVcond_pc (n : Nat) (p : Elem → Bool) : (s.putVcond n p).pc = s.pc := rfl
@[simp] theorem putVcond_npc (n : Nat) (p : Elem → Bool) : (s.putVcond n p).npc = s.npc := rfl
@[simp] theorem putVcond_slot (n : Nat) (p : Elem → Bool) : (s.putVcond n p).slot = s.slot := rfl
@[simp] theorem putVcond_acrossTop (n : Nat) (p : Elem → Bool) : (s.putVcond n p).acrossTop = s.acrossTop :=
  rfl
@[simp] theorem putVcond_vregs (n : Nat) (p : Elem → Bool) : (s.putVcond n p).vregs = s.vregs :=
  rfl
@[simp] theorem putVcond_waits (n : Nat) (p : Elem → Bool) : (s.putVcond n p).waits = s.waits :=
  rfl
@[simp] theorem putVcond_vcount (n : Nat) (p : Elem → Bool) : (s.putVcond n p).vcount = s.vcount :=
  rfl
@[simp] theorem putVcond_vlr (n : Nat) (p : Elem → Bool) : (s.putVcond n p).vlr = s.vlr := rfl
@[simp] theorem putVcond_vcond (n : Nat) (p : Elem → Bool) : (s.putVcond n p).vcond = replaceFlags s.vcond n p := rfl
@[simp] theorem putVcond_vovf (n : Nat) (p : Elem → Bool) : (s.putVcond n p).vovf = s.vovf := rfl
@[simp] theorem putVcond_vsat (n : Nat) (p : Elem → Bool) : (s.putVcond n p).vsat = s.vsat := rfl
@[simp] theorem putVcond_cu2 (n : Nat) (p : Elem → Bool) : (s.putVcond n p).cu2 = s.cu2 := rfl
@[simp] theorem putVcond_fpr (n : Nat) (p : Elem → Bool) : (s.putVcond n p).fpr = s.fpr := rfl
@[simp] theorem putVcond_fcr0 (n : Nat) (p : Elem → Bool) : (s.putVcond n p).fcr0 = s.fcr0 := rfl
@[simp] theorem putVcond_fcr31 (n : Nat) (p : Elem → Bool) : (s.putVcond n p).fcr31 = s.fcr31 :=
  rfl
@[simp] theorem putVcond_llBit (n : Nat) (p : Elem → Bool) : (s.putVcond n p).llBit = s.llBit :=
  rfl
@[simp] theorem putVcond_llAddr (n : Nat) (p : Elem → Bool) : (s.putVcond n p).llAddr = s.llAddr :=
  rfl
@[simp] theorem putVcond_llClean (n : Nat) (p : Elem → Bool) : (s.putVcond n p).llClean = s.llClean :=
  rfl
@[simp] theorem putVcond_mem (n : Nat) (p : Elem → Bool) : (s.putVcond n p).mem = s.mem := rfl
@[simp] theorem putVcond_pending (n : Nat) (p : Elem → Bool) : (s.putVcond n p).pending = s.pending :=
  rfl
@[simp] theorem putVcond_stored (n : Nat) (p : Elem → Bool) : (s.putVcond n p).stored = s.stored :=
  rfl
@[simp] theorem putVcond_draws (n : Nat) (p : Elem → Bool) : (s.putVcond n p).draws = s.draws :=
  rfl
@[simp] theorem putVcond_trap (n : Nat) (p : Elem → Bool) : (s.putVcond n p).trap = s.trap := rfl

/-! ### `State.setHiLo` -/

@[simp] theorem setHiLo_params (u v : Word) : (s.setHiLo u v).params = s.params := rfl
@[simp] theorem setHiLo_regs (u v : Word) : (s.setHiLo u v).regs = s.regs := rfl
@[simp] theorem setHiLo_hi (u v : Word) : (s.setHiLo u v).hi = u := rfl
@[simp] theorem setHiLo_lo (u v : Word) : (s.setHiLo u v).lo = v := rfl
@[simp] theorem setHiLo_hiFromMul (u v : Word) : (s.setHiLo u v).hiFromMul = true := rfl
@[simp] theorem setHiLo_loFromMul (u v : Word) : (s.setHiLo u v).loFromMul = true := rfl
@[simp] theorem setHiLo_pc (u v : Word) : (s.setHiLo u v).pc = s.pc := rfl
@[simp] theorem setHiLo_npc (u v : Word) : (s.setHiLo u v).npc = s.npc := rfl
@[simp] theorem setHiLo_slot (u v : Word) : (s.setHiLo u v).slot = s.slot := rfl
@[simp] theorem setHiLo_acrossTop (u v : Word) : (s.setHiLo u v).acrossTop = s.acrossTop := rfl
@[simp] theorem setHiLo_vregs (u v : Word) : (s.setHiLo u v).vregs = s.vregs := rfl
@[simp] theorem setHiLo_waits (u v : Word) : (s.setHiLo u v).waits = s.waits := rfl
@[simp] theorem setHiLo_vcount (u v : Word) : (s.setHiLo u v).vcount = s.vcount := rfl
@[simp] theorem setHiLo_vlr (u v : Word) : (s.setHiLo u v).vlr = s.vlr := rfl
@[simp] theorem setHiLo_vcond (u v : Word) : (s.setHiLo u v).vcond = s.vcond := rfl
@[simp] theorem setHiLo_vovf (u v : Word) : (s.setHiLo u v).vovf = s.vovf := rfl
@[simp] theorem setHiLo_vsat (u v : Word) : (s.setHiLo u v).vsat = s.vsat := rfl
@[simp] theorem setHiLo_cu2 (u v : Word) : (s.setHiLo u v).cu2 = s.cu2 := rfl
@[simp] theorem setHiLo_fpr (u v : Word) : (s.setHiLo u v).fpr = s.fpr := rfl
@[simp] theorem setHiLo_fcr0 (u v : Word) : (s.setHiLo u v).fcr0 = s.fcr0 := rfl
@[simp] theorem setHiLo_fcr31 (u v : Word) : (s.setHiLo u v).fcr31 = s.fcr31 := rfl
@[simp] theorem setHiLo_llBit (u v : Word) : (s.setHiLo u v).llBit = s.llBit := rfl
@[simp] theorem setHiLo_llAddr (u v : Word) : (s.setHiLo u v).llAddr = s.llAddr := rfl
@[simp] theorem setHiLo_llClean (u v : Word) : (s.setHiLo u v).llClean = s.llClean := rfl
@[simp] theorem setHiLo_mem (u v : Word) : (s.setHiLo u v).mem = s.mem := rfl
@[simp] theorem setHiLo_pending (u v : Word) : (s.setHiLo u v).pending = s.pending := rfl
@[simp] theorem setHiLo_stored (u v : Word) : (s.setHiLo u v).stored = s.stored := rfl
@[simp] theorem setHiLo_draws (u v : Word) : (s.setHiLo u v).draws = s.draws := rfl
@[simp] theorem setHiLo_trap (u v : Word) : (s.setHiLo u v).trap = s.trap := rfl

/-! ### `State.moveToHi` -/

@[simp] theorem moveToHi_params (v : Word) : (s.moveToHi v).params = s.params :=
  by unfold State.moveToHi; split <;> rfl
@[simp] theorem moveToHi_regs (v : Word) : (s.moveToHi v).regs = s.regs :=
  by unfold State.moveToHi; split <;> rfl
@[simp] theorem moveToHi_pc (v : Word) : (s.moveToHi v).pc = s.pc :=
  by unfold State.moveToHi; split <;> rfl
@[simp] theorem moveToHi_npc (v : Word) : (s.moveToHi v).npc = s.npc :=
  by unfold State.moveToHi; split <;> rfl
@[simp] theorem moveToHi_slot (v : Word) : (s.moveToHi v).slot = s.slot :=
  by unfold State.moveToHi; split <;> rfl
@[simp] theorem moveToHi_acrossTop (v : Word) : (s.moveToHi v).acrossTop = s.acrossTop :=
  by unfold State.moveToHi; split <;> rfl
@[simp] theorem moveToHi_vregs (v : Word) : (s.moveToHi v).vregs = s.vregs :=
  by unfold State.moveToHi; split <;> rfl
@[simp] theorem moveToHi_waits (v : Word) : (s.moveToHi v).waits = s.waits :=
  by unfold State.moveToHi; split <;> rfl
@[simp] theorem moveToHi_vcount (v : Word) : (s.moveToHi v).vcount = s.vcount :=
  by unfold State.moveToHi; split <;> rfl
@[simp] theorem moveToHi_vlr (v : Word) : (s.moveToHi v).vlr = s.vlr :=
  by unfold State.moveToHi; split <;> rfl
@[simp] theorem moveToHi_vcond (v : Word) : (s.moveToHi v).vcond = s.vcond :=
  by unfold State.moveToHi; split <;> rfl
@[simp] theorem moveToHi_vovf (v : Word) : (s.moveToHi v).vovf = s.vovf :=
  by unfold State.moveToHi; split <;> rfl
@[simp] theorem moveToHi_vsat (v : Word) : (s.moveToHi v).vsat = s.vsat :=
  by unfold State.moveToHi; split <;> rfl
@[simp] theorem moveToHi_cu2 (v : Word) : (s.moveToHi v).cu2 = s.cu2 :=
  by unfold State.moveToHi; split <;> rfl
@[simp] theorem moveToHi_fpr (v : Word) : (s.moveToHi v).fpr = s.fpr :=
  by unfold State.moveToHi; split <;> rfl
@[simp] theorem moveToHi_fcr0 (v : Word) : (s.moveToHi v).fcr0 = s.fcr0 :=
  by unfold State.moveToHi; split <;> rfl
@[simp] theorem moveToHi_fcr31 (v : Word) : (s.moveToHi v).fcr31 = s.fcr31 :=
  by unfold State.moveToHi; split <;> rfl
@[simp] theorem moveToHi_llBit (v : Word) : (s.moveToHi v).llBit = s.llBit :=
  by unfold State.moveToHi; split <;> rfl
@[simp] theorem moveToHi_llAddr (v : Word) : (s.moveToHi v).llAddr = s.llAddr :=
  by unfold State.moveToHi; split <;> rfl
@[simp] theorem moveToHi_llClean (v : Word) : (s.moveToHi v).llClean = s.llClean :=
  by unfold State.moveToHi; split <;> rfl
@[simp] theorem moveToHi_mem (v : Word) : (s.moveToHi v).mem = s.mem :=
  by unfold State.moveToHi; split <;> rfl
@[simp] theorem moveToHi_pending (v : Word) : (s.moveToHi v).pending = s.pending :=
  by unfold State.moveToHi; split <;> rfl
@[simp] theorem moveToHi_stored (v : Word) : (s.moveToHi v).stored = s.stored :=
  by unfold State.moveToHi; split <;> rfl
@[simp] theorem moveToHi_trap (v : Word) : (s.moveToHi v).trap = s.trap :=
  by unfold State.moveToHi; split <;> rfl

/-! ### `State.moveToLo` -/

@[simp] theorem moveToLo_params (v : Word) : (s.moveToLo v).params = s.params :=
  by unfold State.moveToLo; split <;> rfl
@[simp] theorem moveToLo_regs (v : Word) : (s.moveToLo v).regs = s.regs :=
  by unfold State.moveToLo; split <;> rfl
@[simp] theorem moveToLo_pc (v : Word) : (s.moveToLo v).pc = s.pc :=
  by unfold State.moveToLo; split <;> rfl
@[simp] theorem moveToLo_npc (v : Word) : (s.moveToLo v).npc = s.npc :=
  by unfold State.moveToLo; split <;> rfl
@[simp] theorem moveToLo_slot (v : Word) : (s.moveToLo v).slot = s.slot :=
  by unfold State.moveToLo; split <;> rfl
@[simp] theorem moveToLo_acrossTop (v : Word) : (s.moveToLo v).acrossTop = s.acrossTop :=
  by unfold State.moveToLo; split <;> rfl
@[simp] theorem moveToLo_vregs (v : Word) : (s.moveToLo v).vregs = s.vregs :=
  by unfold State.moveToLo; split <;> rfl
@[simp] theorem moveToLo_waits (v : Word) : (s.moveToLo v).waits = s.waits :=
  by unfold State.moveToLo; split <;> rfl
@[simp] theorem moveToLo_vcount (v : Word) : (s.moveToLo v).vcount = s.vcount :=
  by unfold State.moveToLo; split <;> rfl
@[simp] theorem moveToLo_vlr (v : Word) : (s.moveToLo v).vlr = s.vlr :=
  by unfold State.moveToLo; split <;> rfl
@[simp] theorem moveToLo_vcond (v : Word) : (s.moveToLo v).vcond = s.vcond :=
  by unfold State.moveToLo; split <;> rfl
@[simp] theorem moveToLo_vovf (v : Word) : (s.moveToLo v).vovf = s.vovf :=
  by unfold State.moveToLo; split <;> rfl
@[simp] theorem moveToLo_vsat (v : Word) : (s.moveToLo v).vsat = s.vsat :=
  by unfold State.moveToLo; split <;> rfl
@[simp] theorem moveToLo_cu2 (v : Word) : (s.moveToLo v).cu2 = s.cu2 :=
  by unfold State.moveToLo; split <;> rfl
@[simp] theorem moveToLo_fpr (v : Word) : (s.moveToLo v).fpr = s.fpr :=
  by unfold State.moveToLo; split <;> rfl
@[simp] theorem moveToLo_fcr0 (v : Word) : (s.moveToLo v).fcr0 = s.fcr0 :=
  by unfold State.moveToLo; split <;> rfl
@[simp] theorem moveToLo_fcr31 (v : Word) : (s.moveToLo v).fcr31 = s.fcr31 :=
  by unfold State.moveToLo; split <;> rfl
@[simp] theorem moveToLo_llBit (v : Word) : (s.moveToLo v).llBit = s.llBit :=
  by unfold State.moveToLo; split <;> rfl
@[simp] theorem moveToLo_llAddr (v : Word) : (s.moveToLo v).llAddr = s.llAddr :=
  by unfold State.moveToLo; split <;> rfl
@[simp] theorem moveToLo_llClean (v : Word) : (s.moveToLo v).llClean = s.llClean :=
  by unfold State.moveToLo; split <;> rfl
@[simp] theorem moveToLo_mem (v : Word) : (s.moveToLo v).mem = s.mem :=
  by unfold State.moveToLo; split <;> rfl
@[simp] theorem moveToLo_pending (v : Word) : (s.moveToLo v).pending = s.pending :=
  by unfold State.moveToLo; split <;> rfl
@[simp] theorem moveToLo_stored (v : Word) : (s.moveToLo v).stored = s.stored :=
  by unfold State.moveToLo; split <;> rfl
@[simp] theorem moveToLo_trap (v : Word) : (s.moveToLo v).trap = s.trap :=
  by unfold State.moveToLo; split <;> rfl

/-! ### `State.store` -/

@[simp] theorem store_params (a : Word) (n : Nat) (w : Word) : (s.store a n w).params = s.params :=
  rfl
@[simp] theorem store_regs (a : Word) (n : Nat) (w : Word) : (s.store a n w).regs = s.regs := rfl
@[simp] theorem store_hi (a : Word) (n : Nat) (w : Word) : (s.store a n w).hi = s.hi := rfl
@[simp] theorem store_lo (a : Word) (n : Nat) (w : Word) : (s.store a n w).lo = s.lo := rfl
@[simp] theorem store_hiFromMul (a : Word) (n : Nat) (w : Word) : (s.store a n w).hiFromMul = s.hiFromMul :=
  rfl
@[simp] theorem store_loFromMul (a : Word) (n : Nat) (w : Word) : (s.store a n w).loFromMul = s.loFromMul :=
  rfl
@[simp] theorem store_pc (a : Word) (n : Nat) (w : Word) : (s.store a n w).pc = s.pc := rfl
@[simp] theorem store_npc (a : Word) (n : Nat) (w : Word) : (s.store a n w).npc = s.npc := rfl
@[simp] theorem store_slot (a : Word) (n : Nat) (w : Word) : (s.store a n w).slot = s.slot := rfl
@[simp] theorem store_acrossTop (a : Word) (n : Nat) (w : Word) : (s.store a n w).acrossTop = s.acrossTop :=
  rfl
@[simp] theorem store_vregs (a : Word) (n : Nat) (w : Word) : (s.store a n w).vregs = s.vregs :=
  rfl
@[simp] theorem store_waits (a : Word) (n : Nat) (w : Word) : (s.store a n w).waits = s.waits :=
  rfl
@[simp] theorem store_vcount (a : Word) (n : Nat) (w : Word) : (s.store a n w).vcount = s.vcount :=
  rfl
@[simp] theorem store_vlr (a : Word) (n : Nat) (w : Word) : (s.store a n w).vlr = s.vlr := rfl
@[simp] theorem store_vcond (a : Word) (n : Nat) (w : Word) : (s.store a n w).vcond = s.vcond :=
  rfl
@[simp] theorem store_vovf (a : Word) (n : Nat) (w : Word) : (s.store a n w).vovf = s.vovf := rfl
@[simp] theorem store_vsat (a : Word) (n : Nat) (w : Word) : (s.store a n w).vsat = s.vsat := rfl
@[simp] theorem store_cu2 (a : Word) (n : Nat) (w : Word) : (s.store a n w).cu2 = s.cu2 := rfl
@[simp] theorem store_fpr (a : Word) (n : Nat) (w : Word) : (s.store a n w).fpr = s.fpr := rfl
@[simp] theorem store_fcr0 (a : Word) (n : Nat) (w : Word) : (s.store a n w).fcr0 = s.fcr0 := rfl
@[simp] theorem store_fcr31 (a : Word) (n : Nat) (w : Word) : (s.store a n w).fcr31 = s.fcr31 :=
  rfl
@[simp] theorem store_llBit (a : Word) (n : Nat) (w : Word) : (s.store a n w).llBit = s.llBit :=
  rfl
@[simp] theorem store_llAddr (a : Word) (n : Nat) (w : Word) : (s.store a n w).llAddr = s.llAddr :=
  rfl
@[simp] theorem store_llClean (a : Word) (n : Nat) (w : Word) : (s.store a n w).llClean = s.llClean :=
  rfl
@[simp] theorem store_mem (a : Word) (n : Nat) (w : Word) : (s.store a n w).mem = Memory.writeBytes s.mem a (split s.params.bigEndian n w) := rfl
@[simp] theorem store_pending (a : Word) (n : Nat) (w : Word) : (s.store a n w).pending = s.pending :=
  rfl
@[simp] theorem store_stored (a : Word) (n : Nat) (w : Word) : (s.store a n w).stored = s.stored :=
  rfl
@[simp] theorem store_draws (a : Word) (n : Nat) (w : Word) : (s.store a n w).draws = s.draws :=
  rfl
@[simp] theorem store_trap (a : Word) (n : Nat) (w : Word) : (s.store a n w).trap = s.trap := rfl

/-! ### `State.record` -/

@[simp] theorem record_params (new : List Access) : (s.record new).params = s.params := rfl
@[simp] theorem record_regs (new : List Access) : (s.record new).regs = s.regs := rfl
@[simp] theorem record_hi (new : List Access) : (s.record new).hi = s.hi := rfl
@[simp] theorem record_lo (new : List Access) : (s.record new).lo = s.lo := rfl
@[simp] theorem record_hiFromMul (new : List Access) : (s.record new).hiFromMul = s.hiFromMul :=
  rfl
@[simp] theorem record_loFromMul (new : List Access) : (s.record new).loFromMul = s.loFromMul :=
  rfl
@[simp] theorem record_pc (new : List Access) : (s.record new).pc = s.pc := rfl
@[simp] theorem record_npc (new : List Access) : (s.record new).npc = s.npc := rfl
@[simp] theorem record_slot (new : List Access) : (s.record new).slot = s.slot := rfl
@[simp] theorem record_acrossTop (new : List Access) : (s.record new).acrossTop = s.acrossTop :=
  rfl
@[simp] theorem record_vregs (new : List Access) : (s.record new).vregs = s.vregs := rfl
@[simp] theorem record_waits (new : List Access) : (s.record new).waits = s.waits := rfl
@[simp] theorem record_vcount (new : List Access) : (s.record new).vcount = s.vcount := rfl
@[simp] theorem record_vlr (new : List Access) : (s.record new).vlr = s.vlr := rfl
@[simp] theorem record_vcond (new : List Access) : (s.record new).vcond = s.vcond := rfl
@[simp] theorem record_vovf (new : List Access) : (s.record new).vovf = s.vovf := rfl
@[simp] theorem record_vsat (new : List Access) : (s.record new).vsat = s.vsat := rfl
@[simp] theorem record_cu2 (new : List Access) : (s.record new).cu2 = s.cu2 := rfl
@[simp] theorem record_fpr (new : List Access) : (s.record new).fpr = s.fpr := rfl
@[simp] theorem record_fcr0 (new : List Access) : (s.record new).fcr0 = s.fcr0 := rfl
@[simp] theorem record_fcr31 (new : List Access) : (s.record new).fcr31 = s.fcr31 := rfl
@[simp] theorem record_llBit (new : List Access) : (s.record new).llBit = s.llBit := rfl
@[simp] theorem record_llAddr (new : List Access) : (s.record new).llAddr = s.llAddr := rfl
@[simp] theorem record_llClean (new : List Access) : (s.record new).llClean = false := rfl
@[simp] theorem record_mem (new : List Access) : (s.record new).mem = s.mem := rfl
@[simp] theorem record_pending (new : List Access) : (s.record new).pending = s.pending ++ new := rfl
@[simp] theorem record_stored (new : List Access) : (s.record new).stored = s.stored ++ writtenSpans new := rfl
@[simp] theorem record_draws (new : List Access) : (s.record new).draws = s.draws := rfl
@[simp] theorem record_trap (new : List Access) : (s.record new).trap = s.trap := rfl

/-! ### `State.syncMemory` -/

@[simp] theorem syncMemory_params : (s.syncMemory).params = s.params := rfl
@[simp] theorem syncMemory_regs : (s.syncMemory).regs = s.regs := rfl
@[simp] theorem syncMemory_hi : (s.syncMemory).hi = s.hi := rfl
@[simp] theorem syncMemory_lo : (s.syncMemory).lo = s.lo := rfl
@[simp] theorem syncMemory_hiFromMul : (s.syncMemory).hiFromMul = s.hiFromMul := rfl
@[simp] theorem syncMemory_loFromMul : (s.syncMemory).loFromMul = s.loFromMul := rfl
@[simp] theorem syncMemory_pc : (s.syncMemory).pc = s.pc := rfl
@[simp] theorem syncMemory_npc : (s.syncMemory).npc = s.npc := rfl
@[simp] theorem syncMemory_slot : (s.syncMemory).slot = s.slot := rfl
@[simp] theorem syncMemory_acrossTop : (s.syncMemory).acrossTop = s.acrossTop := rfl
@[simp] theorem syncMemory_vregs : (s.syncMemory).vregs = s.vregs := rfl
@[simp] theorem syncMemory_vcount : (s.syncMemory).vcount = s.vcount := rfl
@[simp] theorem syncMemory_vlr : (s.syncMemory).vlr = s.vlr := rfl
@[simp] theorem syncMemory_vcond : (s.syncMemory).vcond = s.vcond := rfl
@[simp] theorem syncMemory_vovf : (s.syncMemory).vovf = s.vovf := rfl
@[simp] theorem syncMemory_vsat : (s.syncMemory).vsat = s.vsat := rfl
@[simp] theorem syncMemory_cu2 : (s.syncMemory).cu2 = s.cu2 := rfl
@[simp] theorem syncMemory_fpr : (s.syncMemory).fpr = s.fpr := rfl
@[simp] theorem syncMemory_fcr0 : (s.syncMemory).fcr0 = s.fcr0 := rfl
@[simp] theorem syncMemory_fcr31 : (s.syncMemory).fcr31 = s.fcr31 := rfl
@[simp] theorem syncMemory_llBit : (s.syncMemory).llBit = s.llBit := rfl
@[simp] theorem syncMemory_llAddr : (s.syncMemory).llAddr = s.llAddr := rfl
@[simp] theorem syncMemory_llClean : (s.syncMemory).llClean = s.llClean := rfl
@[simp] theorem syncMemory_mem : (s.syncMemory).mem = s.mem := rfl
@[simp] theorem syncMemory_pending : (s.syncMemory).pending = [] := rfl
@[simp] theorem syncMemory_stored : (s.syncMemory).stored = s.stored := rfl
@[simp] theorem syncMemory_draws : (s.syncMemory).draws = s.draws := rfl
@[simp] theorem syncMemory_trap : (s.syncMemory).trap = s.trap := rfl

/-! ### `State.afterVcrRead` -/

@[simp] theorem afterVcrRead_params (cs : BitVec 5) : (s.afterVcrRead cs).params = s.params :=
  by unfold State.afterVcrRead; split <;> rfl
@[simp] theorem afterVcrRead_regs (cs : BitVec 5) : (s.afterVcrRead cs).regs = s.regs :=
  by unfold State.afterVcrRead; split <;> rfl
@[simp] theorem afterVcrRead_hi (cs : BitVec 5) : (s.afterVcrRead cs).hi = s.hi :=
  by unfold State.afterVcrRead; split <;> rfl
@[simp] theorem afterVcrRead_lo (cs : BitVec 5) : (s.afterVcrRead cs).lo = s.lo :=
  by unfold State.afterVcrRead; split <;> rfl
@[simp] theorem afterVcrRead_hiFromMul (cs : BitVec 5) : (s.afterVcrRead cs).hiFromMul = s.hiFromMul :=
  by unfold State.afterVcrRead; split <;> rfl
@[simp] theorem afterVcrRead_loFromMul (cs : BitVec 5) : (s.afterVcrRead cs).loFromMul = s.loFromMul :=
  by unfold State.afterVcrRead; split <;> rfl
@[simp] theorem afterVcrRead_pc (cs : BitVec 5) : (s.afterVcrRead cs).pc = s.pc :=
  by unfold State.afterVcrRead; split <;> rfl
@[simp] theorem afterVcrRead_npc (cs : BitVec 5) : (s.afterVcrRead cs).npc = s.npc :=
  by unfold State.afterVcrRead; split <;> rfl
@[simp] theorem afterVcrRead_slot (cs : BitVec 5) : (s.afterVcrRead cs).slot = s.slot :=
  by unfold State.afterVcrRead; split <;> rfl
@[simp] theorem afterVcrRead_acrossTop (cs : BitVec 5) : (s.afterVcrRead cs).acrossTop = s.acrossTop :=
  by unfold State.afterVcrRead; split <;> rfl
@[simp] theorem afterVcrRead_vregs (cs : BitVec 5) : (s.afterVcrRead cs).vregs = s.vregs :=
  by unfold State.afterVcrRead; split <;> rfl
@[simp] theorem afterVcrRead_waits (cs : BitVec 5) : (s.afterVcrRead cs).waits = s.waits :=
  by unfold State.afterVcrRead; split <;> rfl
@[simp] theorem afterVcrRead_vlr (cs : BitVec 5) : (s.afterVcrRead cs).vlr = s.vlr :=
  by unfold State.afterVcrRead; split <;> rfl
@[simp] theorem afterVcrRead_vcond (cs : BitVec 5) : (s.afterVcrRead cs).vcond = s.vcond :=
  by unfold State.afterVcrRead; split <;> rfl
@[simp] theorem afterVcrRead_vovf (cs : BitVec 5) : (s.afterVcrRead cs).vovf = s.vovf :=
  by unfold State.afterVcrRead; split <;> rfl
@[simp] theorem afterVcrRead_vsat (cs : BitVec 5) : (s.afterVcrRead cs).vsat = s.vsat :=
  by unfold State.afterVcrRead; split <;> rfl
@[simp] theorem afterVcrRead_cu2 (cs : BitVec 5) : (s.afterVcrRead cs).cu2 = s.cu2 :=
  by unfold State.afterVcrRead; split <;> rfl
@[simp] theorem afterVcrRead_fpr (cs : BitVec 5) : (s.afterVcrRead cs).fpr = s.fpr :=
  by unfold State.afterVcrRead; split <;> rfl
@[simp] theorem afterVcrRead_fcr0 (cs : BitVec 5) : (s.afterVcrRead cs).fcr0 = s.fcr0 :=
  by unfold State.afterVcrRead; split <;> rfl
@[simp] theorem afterVcrRead_fcr31 (cs : BitVec 5) : (s.afterVcrRead cs).fcr31 = s.fcr31 :=
  by unfold State.afterVcrRead; split <;> rfl
@[simp] theorem afterVcrRead_llBit (cs : BitVec 5) : (s.afterVcrRead cs).llBit = s.llBit :=
  by unfold State.afterVcrRead; split <;> rfl
@[simp] theorem afterVcrRead_llAddr (cs : BitVec 5) : (s.afterVcrRead cs).llAddr = s.llAddr :=
  by unfold State.afterVcrRead; split <;> rfl
@[simp] theorem afterVcrRead_llClean (cs : BitVec 5) : (s.afterVcrRead cs).llClean = s.llClean :=
  by unfold State.afterVcrRead; split <;> rfl
@[simp] theorem afterVcrRead_mem (cs : BitVec 5) : (s.afterVcrRead cs).mem = s.mem :=
  by unfold State.afterVcrRead; split <;> rfl
@[simp] theorem afterVcrRead_pending (cs : BitVec 5) : (s.afterVcrRead cs).pending = s.pending :=
  by unfold State.afterVcrRead; split <;> rfl
@[simp] theorem afterVcrRead_stored (cs : BitVec 5) : (s.afterVcrRead cs).stored = s.stored :=
  by unfold State.afterVcrRead; split <;> rfl
@[simp] theorem afterVcrRead_trap (cs : BitVec 5) : (s.afterVcrRead cs).trap = s.trap :=
  by unfold State.afterVcrRead; split <;> rfl

end Sys2Proof.Machine
end

