-- ==== Sys2Proof/Laws/Memory.lean ====
section
/-! SUPPORT. The laws of memory: the canonical form is kept, a read after a write gives the value
written, and a write leaves every other byte alone. -/

namespace Sys2Proof.Machine

/-! ### The canonical form -/

theorem wfFrom_cons (lo a : Nat) (v : Byte) (m : Memory) :
    Memory.wfFrom lo ((a, v) :: m) = true ↔
      lo ≤ a ∧ a < 2 ^ 32 ∧ v ≠ Config.fillByte ∧ Memory.wfFrom (a + 1) m = true := by
  simp [Memory.wfFrom, and_assoc]

/-- A canonical list stays canonical for any lower starting address. -/
theorem wfFrom_mono {lo lo' : Nat} (h : lo' ≤ lo) :
    ∀ {m : Memory}, Memory.wfFrom lo m = true → Memory.wfFrom lo' m = true
  | [], _ => rfl
  | (a, v) :: m, hm => by
    rw [wfFrom_cons] at hm ⊢
    exact ⟨h.trans hm.1, hm.2⟩

/-- Below its starting address a canonical list holds no byte. -/
theorem read_below {lo a : Nat} (h : a < lo) :
    ∀ {m : Memory}, Memory.wfFrom lo m = true → Memory.read m a = Config.fillByte
  | [], _ => rfl
  | (b, v) :: m, hm => by
    rw [wfFrom_cons] at hm
    have hb : b ≠ a := by omega
    rw [Memory.read, if_neg hb]
    exact read_below (by omega) hm.2.2.2

/-- Every write keeps the canonical form. -/
theorem wfFrom_write {a : Nat} (v : Byte) (ha : a < 2 ^ 32) :
    ∀ {lo : Nat} {m : Memory}, lo ≤ a → Memory.wfFrom lo m = true →
      Memory.wfFrom lo (Memory.write m a v) = true
  | lo, [], hlo, _ => by
    by_cases hv : v = Config.fillByte
    · simp [Memory.write, hv, Memory.wfFrom]
    · rw [Memory.write, if_neg hv, wfFrom_cons]
      exact ⟨hlo, ha, hv, rfl⟩
  | lo, (b, u) :: m, hlo, hm => by
    have hm' := (wfFrom_cons lo b u m).mp hm
    rw [Memory.write]
    by_cases hab : a < b
    · rw [if_pos hab]
      by_cases hv : v = Config.fillByte
      · rw [if_pos hv]; exact hm
      · rw [if_neg hv, wfFrom_cons]
        refine ⟨hlo, ha, hv, ?_⟩
        rw [wfFrom_cons]
        exact ⟨by omega, hm'.2⟩
    · rw [if_neg hab]
      by_cases heq : a = b
      · rw [if_pos heq]
        by_cases hv : v = Config.fillByte
        · rw [if_pos hv]; exact wfFrom_mono (by omega) hm'.2.2.2
        · rw [if_neg hv, wfFrom_cons]
          exact ⟨hlo, ha, hv, heq ▸ hm'.2.2.2⟩
      · rw [if_neg heq, wfFrom_cons]
        exact ⟨hm'.1, hm'.2.1, hm'.2.2.1, wfFrom_write v ha (by omega) hm'.2.2.2⟩

theorem wf_write {m : Memory} {a : Nat} (v : Byte) (ha : a < 2 ^ 32) (hm : Memory.wf m = true) :
    Memory.wf (Memory.write m a v) = true :=
  wfFrom_write v ha (Nat.zero_le a) hm

theorem wf_writeBytes :
    ∀ (vs : List Byte) {m : Memory} (a : Word), Memory.wf m = true →
      Memory.wf (Memory.writeBytes m a vs) = true
  | [], _, _, hm => hm
  | v :: vs, _, a, hm => wf_writeBytes vs (a + 1#32) (wf_write v a.isLt hm)

theorem wf_store {s : State} (a : Word) (n : Nat) (w : Word) (hs : Memory.wf s.mem = true) :
    Memory.wf (s.store a n w).mem = true :=
  wf_writeBytes _ a hs

theorem wf_reset (p : Params) (entry : Word) : Memory.wf (State.resetWith p entry).mem = true := rfl

/-! ### Reads after writes -/

/-- A write leaves every other byte alone. -/
theorem read_write_other {a b : Nat} (v : Byte) (h : b ≠ a) :
    ∀ {m : Memory}, Memory.read (Memory.write m a v) b = Memory.read m b
  | [] => by
    by_cases hv : v = Config.fillByte
    · rw [Memory.write, if_pos hv]
    · rw [Memory.write, if_neg hv]
      exact if_neg (Ne.symm h)
  | (c, u) :: m => by
    rw [Memory.write]
    split
    · split
      · rfl
      · rw [Memory.read, if_neg (Ne.symm h)]
    · split
      · next hac =>
        split
        · rw [Memory.read, if_neg (by omega)]
        · rw [Memory.read, if_neg (Ne.symm h), Memory.read, if_neg (by omega)]
      · rw [Memory.read, Memory.read, read_write_other v h]

/-- A read after a write to the same address gives the value written. -/
theorem read_write_same {a : Nat} (v : Byte) :
    ∀ {lo : Nat} {m : Memory}, Memory.wfFrom lo m = true →
      Memory.read (Memory.write m a v) a = v
  | _, [], _ => by
    by_cases hv : v = Config.fillByte
    · rw [Memory.write, if_pos hv, Memory.read, hv]
    · rw [Memory.write, if_neg hv, Memory.read, if_pos rfl]
  | lo, (c, u) :: m, hm => by
    have hm' := (wfFrom_cons lo c u m).mp hm
    rw [Memory.write]
    split
    · next hac =>
      split
      · next hv =>
        rw [Memory.read, if_neg (by omega), read_below (lo := c + 1) (by omega) hm'.2.2.2, hv]
      · rw [Memory.read, if_pos rfl]
    · split
      · next hac =>
        split
        · next hv => rw [hac, read_below (lo := c + 1) (by omega) hm'.2.2.2, hv]
        · rw [Memory.read, if_pos rfl]
      · next hac =>
        rw [Memory.read, if_neg (fun e => hac e.symm)]
        exact read_write_same v hm'.2.2.2

/-- Storing a string of bytes leaves alone every address that is none of theirs. -/
theorem read_writeBytes_other :
    ∀ (vs : List Byte) {m : Memory} (a b : Word),
      (∀ k, k < vs.length → b ≠ byteAddr a k) →
      Memory.read (Memory.writeBytes m a vs) b.toNat = Memory.read m b.toNat
  | [], _, _, _, _ => rfl
  | v :: vs, m, a, b, h => by
    have h0 : b ≠ a := by
      have := h 0 (by simp)
      simpa [byteAddr] using this
    rw [Memory.writeBytes, read_writeBytes_other vs (a + 1#32) b, read_write_other]
    · exact fun e => h0 (BitVec.eq_of_toNat_eq e)
    · intro k hk e
      refine h (k + 1) (by simpa using hk) ?_
      rw [e]
      simp only [byteAddr, BitVec.add_assoc]
      congr 1
      apply BitVec.eq_of_toNat_eq
      simp only [BitVec.toNat_add, BitVec.toNat_ofNat]
      omega

/-- Storing a string of bytes puts byte `k` at the `k`-th address. -/
theorem read_writeBytes_same :
    ∀ (vs : List Byte) {m : Memory} (a : Word) (k : Nat) (v : Byte), Memory.wf m = true →
      vs.length ≤ 2 ^ 32 → vs[k]? = some v →
      Memory.read (Memory.writeBytes m a vs) (byteAddr a k).toNat = v
  | [], _, _, _, _, _, _, hv => by simp at hv
  | u :: vs, m, a, 0, v, hm, hl, hv => by
    have hu : u = v := by simpa using hv
    have ha : byteAddr a 0 = a := by simp [byteAddr]
    rw [Memory.writeBytes, ha, read_writeBytes_other vs (a + 1#32) a, hu, read_write_same v hm]
    intro k hk e
    have hk' : k + 1 < 2 ^ 32 := by
      simp only [List.length_cons] at hl
      omega
    have := congrArg BitVec.toNat e
    simp only [byteAddr, BitVec.toNat_add, BitVec.toNat_ofNat] at this
    have hlt := a.isLt
    omega
  | u :: vs, m, a, k + 1, v, hm, hl, hv => by
    have hadd : byteAddr a (k + 1) = byteAddr (a + 1#32) k := by
      simp only [byteAddr, BitVec.add_assoc]
      congr 1
      apply BitVec.eq_of_toNat_eq
      simp only [BitVec.toNat_add, BitVec.toNat_ofNat]
      omega
    rw [Memory.writeBytes, hadd]
    refine read_writeBytes_same vs (a + 1#32) k v (wf_write u a.isLt hm) ?_ (by simpa using hv)
    simp only [List.length_cons] at hl
    omega

@[simp] theorem length_split (be : Bool) (n : Nat) (w : Word) : (split be n w).length = n := by
  simp [split]

theorem getElem?_split (be : Bool) (n : Nat) (w : Word) {k : Nat} (hk : k < n) :
    (split be n w)[k]? = some (byteAt be n w k) := by
  simp [split, hk]

/-- A store changes no byte outside its own `n`. -/
theorem byte_store_other (s : State) (a : Word) (n : Nat) (w b : Word)
    (h : ∀ k, k < n → b ≠ byteAddr a k) : (s.store a n w).byte b = s.byte b :=
  read_writeBytes_other _ a b (by simpa using h)

/-- A store puts byte `k` of its value at its `k`-th address. -/
theorem byte_store_same (s : State) (a : Word) (n : Nat) (w : Word) {k : Nat}
    (hs : Memory.wf s.mem = true) (hn : n ≤ 4) (hk : k < n) :
    (s.store a n w).byte (byteAddr a k) = byteAt s.params.bigEndian n w k :=
  read_writeBytes_same _ a k _ hs (by simp; omega) (getElem?_split _ n w hk)

theorem byte_congr {s t : State} (h : t.mem = s.mem) (a : Word) : t.byte a = s.byte a := by
  simp [State.byte, h]

theorem load_congr {s t : State} (hm : t.mem = s.mem) (hp : t.params = s.params) (a : Word) (n : Nat) :
    t.load a n = s.load a n := by
  simp [State.load, State.bytes, State.byte, hm, hp]

/-! ### Vector stores -/

/-- An update that every step of a fold leaves alone is left alone by the fold. -/
theorem foldl_store_keeps {α : Type} (f : State → α) (addrs : Addrs) (size : Nat) (g : Elem → Word)
    (h : ∀ (t : State) (i : Elem), f (t.store (addrs i) size (g i)) = f t) :
    ∀ (l : List Elem) (t : State), f (l.foldl (fun t i => t.store (addrs i) size (g i)) t) = f t
  | [], _ => rfl
  | i :: l, t => by rw [List.foldl_cons, foldl_store_keeps f addrs size g h l, h]

/-- A vector store writes memory alone. -/
theorem storeElems_only_mem (s : State) (addrs : Addrs) (size n : Nat) (f : Elem → Word) :
    s.storeElems addrs size n f = { s with mem := (s.storeElems addrs size n f).mem } :=
  (foldl_store_keeps (fun t => { t with mem := [] }) addrs size _ (fun _ _ => rfl) (elems n) s
    |> fun h => by
      have h' : ({ s.storeElems addrs size n f with mem := [] } : State) = { s with mem := [] } := h
      calc s.storeElems addrs size n f
          = { ({ s.storeElems addrs size n f with mem := [] } : State) with
              mem := (s.storeElems addrs size n f).mem } := rfl
        _ = _ := by rw [h'])

theorem wf_storeElems (s : State) (addrs : Addrs) (size n : Nat) (f : Elem → Word)
    (hs : Memory.wf s.mem = true) : Memory.wf (s.storeElems addrs size n f).mem = true := by
  unfold State.storeElems
  suffices h : ∀ (l : List Elem) (t : State), Memory.wf t.mem = true →
      Memory.wf (l.foldl (fun t i => t.store (addrs i) size (f (s.survivor addrs n i))) t).mem = true
    from h _ s hs
  intro l
  induction l with
  | nil => exact fun _ h => h
  | cons i l ih => exact fun t h => ih _ (wf_store _ _ _ h)

/-- A vector store changes no byte outside the bytes of its elements. -/
theorem byte_storeElems_other (s : State) (addrs : Addrs) (size n : Nat) (f : Elem → Word) (b : Word)
    (h : ∀ i : Elem, i.val < n → ∀ k, k < size → b ≠ byteAddr (addrs i) k) :
    (s.storeElems addrs size n f).byte b = s.byte b := by
  unfold State.storeElems
  suffices H : ∀ (l : List Elem) (t : State), (∀ i ∈ l, i.val < n) →
      (l.foldl (fun t i => t.store (addrs i) size (f (s.survivor addrs n i))) t).byte b = t.byte b by
    refine H _ s fun i hi => ?_
    simpa [elems] using hi
  intro l
  induction l with
  | nil => exact fun _ _ => rfl
  | cons i l ih =>
    intro t hl
    rw [List.foldl_cons, ih _ fun j hj => hl j (List.mem_cons_of_mem _ hj)]
    exact byte_store_other t _ _ _ b (h i (hl i (List.mem_cons_self ..)))

end Sys2Proof.Machine
end

