-- ==== Sys2Proof/Laws/Registers.lean ====
section
/-! SUPPORT. Reading registers after writing them: general registers, vector registers, flags. -/

namespace Sys2Proof.Machine

variable (s : State)

/-! ### General registers (R20) -/

@[simp] theorem reg_zero : s.reg 0#5 = 0#32 := rfl

/-- The register read depends on the register file alone. -/
theorem reg_congr {s t : State} (h : t.regs = s.regs) (r : Reg) : t.reg r = s.reg r := by
  simp [State.reg, h]

theorem reg_setReg_same (r : Reg) (v : Word) (h : r ≠ 0#5) : (s.setReg r v).reg r = v := by
  simp [State.reg, State.setReg, h]

theorem reg_setReg_other (r q : Reg) (v : Word) (h : q ≠ r) : (s.setReg r v).reg q = s.reg q := by
  unfold State.reg State.setReg
  by_cases hq : q = 0#5
  · simp [hq]
  · by_cases hr : r = 0#5
    · simp [hr]
    · have hne : r.toNat ≠ q.toNat := fun e => h (BitVec.eq_of_toNat_eq e.symm)
      simp [hq, hr, hne]

/-- The one rule of register reads after a register write. -/
theorem reg_setReg (r q : Reg) (v : Word) :
    (s.setReg r v).reg q = if q = r ∧ r ≠ 0#5 then v else s.reg q := by
  by_cases h : q = r
  · subst h
    by_cases h0 : q = 0#5
    · simp [h0]
    · simp [h0, reg_setReg_same]
  · simp [h, reg_setReg_other s r q v h]

@[simp] theorem setReg_zero (v : Word) : s.setReg 0#5 v = s := rfl

/-! ### Vector registers (R24, R25, R27) -/

@[simp] theorem elem_zero (i : Elem) : s.elem 0#5 i = 0#32 := by simp [State.elem, State.vreg]

theorem vreg_congr {s t : State} (h : t.vregs = s.vregs) (k : VReg) : t.vreg k = s.vreg k := by
  simp [State.vreg, h]

theorem elem_congr {s t : State} (h : t.vregs = s.vregs) (k : VReg) (i : Elem) :
    t.elem k i = s.elem k i := by
  simp [State.elem, vreg_congr h]

theorem vreg_setVreg_other (k q : VReg) (v : VecReg) (h : q ≠ k) :
    (s.setVreg k v).vreg q = s.vreg q := by
  unfold State.vreg State.setVreg
  by_cases hq : q = 0#5
  · simp [hq]
  · by_cases hk : k = 0#5
    · simp [hk]
    · have hne : k.toNat ≠ q.toNat := fun e => h (BitVec.eq_of_toNat_eq e.symm)
      simp [hq, hk, hne]

theorem vreg_setVreg_same (k : VReg) (v : VecReg) (h0 : k ≠ 0#5) (hk : k.toNat < Config.nvreg) :
    (s.setVreg k v).vreg k = v := by
  simp [State.vreg, State.setVreg, h0, hk]

theorem getElem_updateWhere (old : VecReg) (n : Nat) (w : Elem → Bool) (f : Elem → Word) (i : Elem) :
    (updateWhere old n w f)[i] = if i.val < n ∧ w i = true then f i else old[i] := by
  simp [updateWhere]

@[simp] theorem elem_setWaits (k q : VReg) (n : Nat) (d : Waits) (i : Elem) :
    (s.setWaits k n d).elem q i = s.elem q i :=
  elem_congr (setWaits_vregs s k n d) q i

theorem elem_setElemsWhere_other (k q : VReg) (n : Nat) (w : Elem → Bool) (f : Elem → Word) (d : Waits)
    (i : Elem) (h : q ≠ k) : (s.setElemsWhere k n w f d).elem q i = s.elem q i := by
  rw [State.setElemsWhere, elem_setWaits, State.elem, State.elem, vreg_setVreg_other _ _ _ _ h]

theorem elem_setElemsWhere_same (k : VReg) (n : Nat) (w : Elem → Bool) (f : Elem → Word) (d : Waits)
    (i : Elem) (h0 : k ≠ 0#5) (hk : k.toNat < Config.nvreg) :
    (s.setElemsWhere k n w f d).elem k i = if i.val < n ∧ w i = true then f i else s.elem k i := by
  rw [State.setElemsWhere, elem_setWaits, State.elem, State.elem, vreg_setVreg_same _ _ _ h0 hk,
    getElem_updateWhere]

theorem elem_setElems_other (k q : VReg) (n : Nat) (f : Elem → Word) (d : Waits) (i : Elem)
    (h : q ≠ k) : (s.setElems k n f d).elem q i = s.elem q i :=
  elem_setElemsWhere_other s k q n _ f d i h

theorem elem_setElems_same (k : VReg) (n : Nat) (f : Elem → Word) (d : Waits) (i : Elem)
    (h0 : k ≠ 0#5) (hk : k.toNat < Config.nvreg) :
    (s.setElems k n f d).elem k i = if i.val < n then f i else s.elem k i := by
  simp [State.setElems, elem_setElemsWhere_same _ _ _ _ _ _ _ h0 hk]

@[simp] theorem setElemsWhere_zero (n : Nat) (w : Elem → Bool) (f : Elem → Word) (d : Waits) :
    s.setElemsWhere 0#5 n w f d = s := rfl

@[simp] theorem setElems_zero (n : Nat) (f : Elem → Word) (d : Waits) : s.setElems 0#5 n f d = s := rfl

/-! ### Registers that do not exist

No instruction gets this far with such a number (R106); these lemmas spare the case split on it. -/

theorem setIfInBounds_absent {α : Type} {n : Nat} (v : Vector α n) {k : Nat} (x : α) (h : n ≤ k) :
    v.setIfInBounds k x = v := by
  ext i hi
  rw [Vector.getElem_setIfInBounds hi, if_neg (by omega)]

theorem setVreg_absent (k : VReg) (v : VecReg) (h : Config.nvreg ≤ k.toNat) : s.setVreg k v = s := by
  unfold State.setVreg
  rw [setIfInBounds_absent _ _ h]
  split <;> rfl

theorem setWaits_absent (k : VReg) (n : Nat) (d : Waits) (h : Config.nvreg ≤ k.toNat) :
    s.setWaits k n d = s := by
  unfold State.setWaits
  simp only [setIfInBounds_absent _ _ h]
  split <;> rfl

theorem setElemsWhere_absent (k : VReg) (n : Nat) (w : Elem → Bool) (f : Elem → Word) (d : Waits)
    (h : Config.nvreg ≤ k.toNat) : s.setElemsWhere k n w f d = s := by
  rw [State.setElemsWhere, setVreg_absent _ _ _ h, setWaits_absent _ _ _ _ h]

/-! ### The loads an element comes from (R75) -/

@[simp] theorem waitsOf_zero (i : Elem) : s.waitsOf 0#5 i = [] := rfl

theorem waitsOf_congr {s t : State} (h : t.waits = s.waits) (k : VReg) (i : Elem) :
    t.waitsOf k i = s.waitsOf k i := by
  simp [State.waitsOf, h]

theorem waitsOf_setWaits_other (k q : VReg) (n : Nat) (d : Waits) (i : Elem) (h : q ≠ k) :
    (s.setWaits k n d).waitsOf q i = s.waitsOf q i := by
  unfold State.setWaits
  by_cases hk : k = 0#5
  · simp [hk]
  · have hne : k.toNat ≠ q.toNat := fun e => h (BitVec.eq_of_toNat_eq e.symm)
    simp [State.waitsOf, hk, hne]

theorem waitsOf_setWaits_same (k : VReg) (n : Nat) (d : Waits) (i : Elem) (h0 : k ≠ 0#5)
    (hk : k.toNat < Config.nvreg) :
    (s.setWaits k n d).waitsOf k i = if i.val < n then d i else s.waitsOf k i := by
  unfold State.setWaits
  rw [if_neg h0]
  simp [State.waitsOf, h0, hk]

theorem waitsOf_setVreg (k q : VReg) (v : VecReg) (i : Elem) :
    (s.setVreg k v).waitsOf q i = s.waitsOf q i :=
  waitsOf_congr (setVreg_waits s k v) q i

theorem waitsOf_setElemsWhere_other (k q : VReg) (n : Nat) (w : Elem → Bool) (f : Elem → Word)
    (d : Waits) (i : Elem) (h : q ≠ k) : (s.setElemsWhere k n w f d).waitsOf q i = s.waitsOf q i := by
  rw [State.setElemsWhere, waitsOf_setWaits_other _ _ _ _ _ _ h, waitsOf_setVreg]

/-- An element that is written comes from `d`, one that is passed over from `d` and its old loads. -/
theorem waitsOf_setElemsWhere_same (k : VReg) (n : Nat) (w : Elem → Bool) (f : Elem → Word) (d : Waits)
    (i : Elem) (h0 : k ≠ 0#5) (hk : k.toNat < Config.nvreg) :
    (s.setElemsWhere k n w f d).waitsOf k i =
      if i.val < n then (if w i then d i else d i ∪ s.waitsOf k i) else s.waitsOf k i := by
  rw [State.setElemsWhere, waitsOf_setWaits_same _ _ _ _ _ h0 hk, waitsOf_setVreg]

theorem waitsOf_setElems_other (k q : VReg) (n : Nat) (f : Elem → Word) (d : Waits) (i : Elem)
    (h : q ≠ k) : (s.setElems k n f d).waitsOf q i = s.waitsOf q i :=
  waitsOf_setElemsWhere_other s k q n _ f d i h

theorem waitsOf_setElems_same (k : VReg) (n : Nat) (f : Elem → Word) (d : Waits) (i : Elem)
    (h0 : k ≠ 0#5) (hk : k.toNat < Config.nvreg) :
    (s.setElems k n f d).waitsOf k i = if i.val < n then d i else s.waitsOf k i := by
  simp [State.setElems, waitsOf_setElemsWhere_same _ _ _ _ _ _ _ h0 hk]

theorem mem_waitsOn {ab : Pairs} {u : Elem → Bool × Bool} {i : Elem} {j : Nat} :
    j ∈ ab.waitsOn u i ↔ ((u i).1 = true ∧ j ∈ ab.waitsA i) ∨ ((u i).2 = true ∧ j ∈ ab.waitsB i) := by
  rw [Pairs.waitsOn, List.mem_union_iff]
  cases (u i).1 <;> cases (u i).2 <;> simp

theorem mem_waits {ab : Pairs} {i : Elem} {j : Nat} :
    j ∈ ab.waits i ↔ j ∈ ab.waitsA i ∨ j ∈ ab.waitsB i := by
  simp [Pairs.waits, mem_waitsOn]

@[simp] theorem waitsOf_syncMemory (k : VReg) (i : Elem) : s.syncMemory.waitsOf k i = [] := by
  unfold State.waitsOf State.syncMemory
  split
  · rfl
  · by_cases h : k.toNat < Config.nvreg <;> simp [h]

@[simp] theorem waitsOf_resetWith (p : Params) (entry : Word) (k : VReg) (i : Elem) :
    (State.resetWith p entry).waitsOf k i = [] := by
  unfold State.waitsOf State.resetWith
  split
  · rfl
  · by_cases h : k.toNat < Config.nvreg <;> simp [h]

/-! ### Floating-point registers (R46) -/

theorem fgr_congr {s t : State} (h : t.fpr = s.fpr) (r : Reg) : t.fgr r = s.fgr r := by
  simp [State.fgr, h]

theorem fgr_setFgr (r q : Reg) (v : Word) : (s.setFgr r v).fgr q = if q = r then v else s.fgr q := by
  unfold State.fgr State.setFgr
  by_cases h : q = r
  · simp [h]
  · have hne : r.toNat ≠ q.toNat := fun e => h (BitVec.eq_of_toNat_eq e.symm)
    simp [h, hne]

@[simp] theorem fcr31_setFcr (r : Reg) (v : Word) :
    (s.setFcr r v).fcr31 = if r = 31#5 then v else s.fcr31 := by
  unfold State.setFcr
  split <;> rfl

/-! ### Flags (R37, R39, R41) -/

/-- Bit `i` of a mask. -/
theorem getElem_flagMask (n : Nat) (p : Elem → Bool) (i : Elem) :
    (flagMask n p)[i.val] = (decide (i.val < n) && p i) := by
  simp [flagMask]

theorem getElem_sticky (old : Word) (n : Nat) (p : Elem → Bool) (i : Elem) :
    (sticky old n p)[i.val] = (old[i.val] || (decide (i.val < n) && p i)) := by
  simp [sticky, getElem_flagMask]

theorem getElem_replaceFlags (old : Word) (n : Nat) (p : Elem → Bool) (i : Elem) :
    (replaceFlags old n p)[i.val] = if i.val < n then p i else old[i.val] := by
  by_cases h : i.val < n <;> simp [replaceFlags, getElem_flagMask, h]

end Sys2Proof.Machine
end

