-- ==== Sys2Proof/Laws/Issue.lean ====
section
/-! SUPPORT. One lemma per shared operation that says once what it can answer, and one that says when
it goes on. -/

namespace Sys2Proof.Machine

open Sys2Proof.Safety

/-! ### Exceptions -/

/-- Taking an exception records the outcome and changes nothing else (R439 to R441). -/
theorem raise_eq (e : Exception) (s : State) : raise e s = .next (withTrap s e) := by
  unfold raise withTrap State.trapOutcome State.epc
  cases s.slot <;> rfl

theorem raise_next {e : Exception} {s t : State} : raise e s = .next t ↔ t = withTrap s e := by
  rw [raise_eq]
  exact ⟨fun h => (Host.Outcome.next.inj h).symm, fun h => h ▸ rfl⟩

theorem withTrap_eq (s : State) (e : Exception) :
    withTrap s e = { s with trap := (withTrap s e).trap } := by
  unfold withTrap
  cases s.slot <;> rfl

@[simp] theorem withTrap_trap_isSome (s : State) (e : Exception) : (withTrap s e).trap.isSome = true := by
  unfold withTrap
  cases s.slot <;> rfl

/-! ### Memory accesses -/

theorem findSome_unbacked (s : State) (new : List Access) :
    new.findSome? (fun x => Params.firstUnbacked s.params x.addr x.size) = none ↔
      ∀ x ∈ new, Params.firstUnbacked s.params x.addr x.size = none :=
  List.findSome?_eq_none_iff

/-- Accesses that can be made are made and recorded. -/
theorem accessing_ok {s : State} {new : List Access} (h : accessible s new) (k : State → Result) :
    s.accessing new k = k (s.record new) := by
  unfold State.accessing
  rw [(findSome_unbacked s new).mpr h.1, h.2]

/-- What a memory access can answer: a bus error, or what follows once it is recorded. -/
theorem accessing_next {s t : State} {new : List Access} {k : State → Result}
    (h : s.accessing new k = .next t) :
    (∃ a, t = withTrap s (.busError a)) ∨ (accessible s new ∧ k (s.record new) = .next t) := by
  unfold State.accessing at h
  split at h
  · exact .inl ⟨_, raise_next.mp h⟩
  · next hb =>
    split at h
    · simp at h
    · next hr => exact .inr ⟨⟨(findSome_unbacked s new).mp hb, hr⟩, h⟩

/-- The model's own look for a race finds one exactly when there is one (R74, R75). -/
theorem races_iff (s : State) (x : Access) : s.races x = true ↔ racing s x := by
  simp only [State.races, List.any_eq_true, Prod.exists, List.mem_zipIdx_iff_getElem?, conflicts, overlaps,
    racing, Bool.and_eq_true, Bool.or_eq_true, beq_iff_eq, decide_eq_true_eq, Bool.not_eq_true',
    List.contains_eq_mem, decide_eq_false_iff_not]
  constructor
  · rintro ⟨old, j, hj, ⟨⟨ha, hk⟩, h1, h2⟩, hn⟩
    exact ⟨j, old, hj, hn, ha, hk, h1, h2⟩
  · rintro ⟨j, old, hj, hn, ha, hk, h1, h2⟩
    exact ⟨old, j, hj, ⟨⟨ha, hk⟩, h1, h2⟩, hn⟩

/-- Backed accesses that do not race can be made (R74, R75). -/
theorem accessible_of_no_race {s : State} {new : List Access}
    (hb : ∀ x ∈ new, Params.firstUnbacked s.params x.addr x.size = none)
    (hr : ∀ x ∈ new, ¬racing s x) : accessible s new := by
  refine ⟨hb, ?_⟩
  unfold State.firstRace
  split
  · exact List.find?_eq_none.mpr fun x hx h => hr x hx ((races_iff s x).mp h)
  · rfl

/-- Backed accesses of which one races stop at the first one that does (R74). -/
theorem accessing_race {s : State} {pre post : List Access} {x : Access} (k : State → Result)
    (hs : s.params.needsSync = true)
    (hb : ∀ y ∈ pre ++ x :: post, Params.firstUnbacked s.params y.addr y.size = none)
    (hp : ∀ y ∈ pre, ¬racing s y) (hx : racing s x) :
    s.accessing (pre ++ x :: post) k = .fault (.memoryRace x.addr) := by
  have hr : s.firstRace (pre ++ x :: post) = some x := by
    rw [State.firstRace, if_pos hs, List.find?_eq_some_iff_append]
    exact ⟨(races_iff s x).mpr hx, pre, post, rfl, fun y hy => by
      simpa using fun h => hp y hy ((races_iff s y).mp h)⟩
  unfold State.accessing
  rw [(findSome_unbacked s _).mpr hb]
  simp only [hr]

theorem recorded_record (s : State) (new : List Access) : recorded s (s.record new) new :=
  ⟨rfl, rfl, rfl⟩

/-! ### Issue of vector instructions -/

theorem namesAbsentVreg_eq_false {i : Instr} :
    namesAbsentVreg i = false ↔ ∀ k ∈ i.vregs, k.toNat < Config.nvreg := by
  simp [namesAbsentVreg]

theorem vuIssue_ok {i : Instr} {s : State} (h : vuUsable i s) (k : Result) : vuIssue i s k = k := by
  simp [vuIssue, h.1, namesAbsentVreg_eq_false.mpr h.2]

/-- What the issue of a coprocessor 2 instruction can answer (R106, R433). -/
theorem vuIssue_next {i : Instr} {s t : State} {k : Result} (h : vuIssue i s k = .next t) :
    t = withTrap s (.coprocessorUnusable 2#2) ∨ t = withTrap s (.reservedInstruction (encode i)) ∨
      (vuUsable i s ∧ k = .next t) := by
  unfold vuIssue at h
  split at h
  · exact .inl (raise_next.mp h)
  · next hc =>
    split at h
    · exact .inr (.inl (raise_next.mp h))
    · next hv =>
      refine .inr (.inr ⟨⟨by simpa using hc, ?_⟩, h⟩)
      exact namesAbsentVreg_eq_false.mp (by simpa using hv)

theorem vecIssue_ok {i : Instr} {s : State} (h : vecReady i s) (k : Nat → Result) :
    vecIssue i s k = k s.vlr.toNat := by
  rw [vecIssue, vuIssue_ok h.1, if_neg (by have := h.2; omega)]

/-- What the preamble of a vector instruction can answer (R15). -/
theorem vecIssue_next {i : Instr} {s t : State} {k : Nat → Result} (h : vecIssue i s k = .next t) :
    (∃ e, t = withTrap s e) ∨ (vecReady i s ∧ k s.vlr.toNat = .next t) := by
  rcases vuIssue_next h with h | h | ⟨hu, h⟩
  · exact .inl ⟨_, h⟩
  · exact .inl ⟨_, h⟩
  · split at h
    · exact .inl ⟨_, raise_next.mp h⟩
    · next hv => exact .inr ⟨⟨hu, by omega⟩, h⟩

/-! ### Jumps and branches -/

theorem notInSlot_ok {s : State} (h : s.slot = none) (k : Result) : notInSlot s k = k := by
  simp [notInSlot, h]

theorem notInSlot_next {s t : State} {k : Result} (h : notInSlot s k = .next t) :
    s.slot = none ∧ k = .next t := by
  unfold notInSlot at h
  split at h
  · simp at h
  · next hs => exact ⟨by simpa using hs, h⟩

theorem branchIf_next {c : Bool} {o : BitVec 16} {s t : State} (h : branchIf c o s = .next t) :
    s.slot = none ∧ t = if c then s.takeBranch (s.branchTarget o) else s.passBranch := by
  obtain ⟨hs, h⟩ := notInSlot_next h
  exact ⟨hs, (Host.Outcome.next.inj h).symm⟩

theorem branchLikelyIf_next {c : Bool} {o : BitVec 16} {s t : State}
    (h : branchLikelyIf c o s = .next t) :
    s.slot = none ∧ t = if c then s.takeBranch (s.branchTarget o) else s.nullifySlot := by
  obtain ⟨hs, h⟩ := notInSlot_next h
  exact ⟨hs, (Host.Outcome.next.inj h).symm⟩

theorem linking_next {rs : Reg} {s t : State} {k : State → Result} (h : linking rs s k = .next t) :
    s.slot = none ∧ rs ≠ 31#5 ∧ k (s.setReg 31#5 s.linkValue) = .next t := by
  obtain ⟨hs, h⟩ := notInSlot_next h
  split at h
  · simp at h
  · next hr => exact ⟨hs, hr, h⟩

theorem linking_ok {rs : Reg} {s : State} (hs : s.slot = none) (hr : rs ≠ 31#5) (k : State → Result) :
    linking rs s k = k (s.setReg 31#5 s.linkValue) := by
  rw [linking, notInSlot_ok hs, if_neg hr]

/-! ### Scalar instructions -/

theorem trapIf_next {c : Bool} {s t : State} (h : trapIf c s = .next t) :
    (c = true ∧ t = withTrap s .trap) ∨ (c = false ∧ t = s.advance) := by
  unfold trapIf at h
  split at h
  · next hc => exact .inl ⟨hc, raise_next.mp h⟩
  · next hc => exact .inr ⟨by simpa using hc, (Host.Outcome.next.inj h).symm⟩

theorem writeOrOverflow_next {rd : Reg} {v : BitVec 33} {s t : State}
    (h : writeOrOverflow rd v s = .next t) :
    t = withTrap s .integerOverflow ∨ t = (s.setReg rd (v.setWidth 32)).advance := by
  unfold writeOrOverflow at h
  split at h
  · exact .inl (raise_next.mp h)
  · exact .inr (Host.Outcome.next.inj h).symm

theorem scalarLoad_ok {a : Word} {n : Nat} {f : Word → Word} {rt : Reg} {s : State}
    (ha : a.toNat % n = 0) (h : accessible s (scalarAccess .read a n)) :
    scalarLoad a n f rt s =
      .next ((s.record (scalarAccess .read a n)).setReg rt (f (s.load a n))).advance := by
  simp [scalarLoad, misaligned, ha, accessing_ok h]

theorem scalarLoad_next {a : Word} {n : Nat} {f : Word → Word} {rt : Reg} {s t : State}
    (h : scalarLoad a n f rt s = .next t) :
    (∃ e, t = withTrap s e) ∨
      t = ((s.record (scalarAccess .read a n)).setReg rt (f (s.load a n))).advance := by
  unfold scalarLoad at h
  split at h
  · exact .inl ⟨_, raise_next.mp h⟩
  · rcases accessing_next h with ⟨a, h⟩ | ⟨_, h⟩
    · exact .inl ⟨_, h⟩
    · exact .inr (Host.Outcome.next.inj h).symm

theorem scalarStore_ok {a : Word} {n : Nat} {rt : Reg} {s : State}
    (ha : a.toNat % n = 0) (h : accessible s (scalarAccess .write a n)) :
    scalarStore a n rt s =
      .next ((s.record (scalarAccess .write a n)).store a n (s.reg rt)).advance := by
  simp [scalarStore, misaligned, ha, accessing_ok h]

theorem scalarStore_next {a : Word} {n : Nat} {rt : Reg} {s t : State}
    (h : scalarStore a n rt s = .next t) :
    (∃ e, t = withTrap s e) ∨
      t = ((s.record (scalarAccess .write a n)).store a n (s.reg rt)).advance := by
  unfold scalarStore at h
  split at h
  · exact .inl ⟨_, raise_next.mp h⟩
  · rcases accessing_next h with ⟨a, h⟩ | ⟨_, h⟩
    · exact .inl ⟨_, h⟩
    · exact .inr (Host.Outcome.next.inj h).symm

theorem partialLoad_next {a : Word} {m : Word → Word → Word} {rt : Reg} {s t : State}
    (h : partialLoad a m rt s = .next t) :
    (∃ e, t = withTrap s e) ∨
      t = ((s.record (scalarAccess .read (wordBase a) 4)).setReg rt
        (m (s.load (wordBase a) 4) (s.reg rt))).advance := by
  rcases accessing_next h with ⟨a, h⟩ | ⟨_, h⟩
  · exact .inl ⟨_, h⟩
  · exact .inr (Host.Outcome.next.inj h).symm

theorem partialStore_next {a : Word} {n : Nat} {v : Word} {s t : State}
    (h : partialStore a n v s = .next t) :
    (∃ e, t = withTrap s e) ∨ t = ((s.record (scalarAccess .write a n)).store a n v).advance := by
  rcases accessing_next h with ⟨a, h⟩ | ⟨_, h⟩
  · exact .inl ⟨_, h⟩
  · exact .inr (Host.Outcome.next.inj h).symm

/-! ### Coprocessor rows outside the vector unit -/

theorem cop1Instr_ok {s : State} (h : s.params.hasFpu = true) (k : Result) : cop1Instr s k = k := by
  simp [cop1Instr, h]

/-- A coprocessor 1 instruction traps without a floating-point unit, and goes on with one (R236). -/
theorem cop1Instr_next {s t : State} {k : Result} (h : cop1Instr s k = .next t) :
    (s.params.hasFpu = false ∧ t = withTrap s (.coprocessorUnusable 1#2)) ∨
      (s.params.hasFpu = true ∧ k = .next t) := by
  unfold cop1Instr at h
  split at h
  · next hf => exact .inr ⟨hf, h⟩
  · next hf => exact .inl ⟨by simpa using hf, raise_next.mp h⟩

/-- What a branch of coprocessor 1 can answer (R225). -/
theorem cop1Branch_next {f : BitVec 26} {s t : State} (h : cop1Branch f s = .next t) :
    (∃ e, t = withTrap s e) ∨ (s.slot = none ∧
      ((∃ a, t = s.takeBranch a) ∨ t = s.passBranch ∨ t = s.nullifySlot)) := by
  have near : ∀ c o, branchIf c o s = .next t → s.slot = none ∧
      ((∃ a, t = s.takeBranch a) ∨ t = s.passBranch ∨ t = s.nullifySlot) := fun c o h => by
    obtain ⟨hs, rfl⟩ := branchIf_next h
    cases c
    · simp [hs]
    · exact ⟨hs, .inl ⟨_, rfl⟩⟩
  have likely : ∀ c o, branchLikelyIf c o s = .next t → s.slot = none ∧
      ((∃ a, t = s.takeBranch a) ∨ t = s.passBranch ∨ t = s.nullifySlot) := fun c o h => by
    obtain ⟨hs, rfl⟩ := branchLikelyIf_next h
    cases c
    · simp [hs]
    · exact ⟨hs, .inl ⟨_, rfl⟩⟩
  unfold cop1Branch at h
  simp only at h
  split at h
  · exact .inr (near _ _ h)
  · exact .inr (near _ _ h)
  · exact .inr (likely _ _ h)
  · exact .inr (likely _ _ h)
  · exact .inl ⟨_, raise_next.mp h⟩

/-- A move of coprocessor 1 runs only with its unused bits zero (R121). -/
theorem cop1Move_next {m : String} {f : BitVec 26} {k : Reg → Reg → Result} {t : State}
    (h : cop1Move m f k = .next t) : k (f.extractLsb' 16 5) (f.extractLsb' 11 5) = .next t := by
  unfold cop1Move at h
  split at h
  · exact h
  · simp at h

/-- What a word of coprocessor 1 can answer with a floating-point unit: the exception of a reserved word, a
move, or a branch (R96, R221 to R225). -/
theorem cop1Word_next {f : BitVec 26} {s t : State} (h : cop1Word f s = .next t) :
    (∃ e, t = withTrap s e) ∨ (∃ r v n, t = ((s.consume n).setReg r v).advance) ∨
      (∃ r v, t = (s.setFgr r v).advance) ∨ (∃ r v, t = (s.setFcr r v).advance) ∨
      (f.extractLsb' 21 5 = 0b01000#5 ∧ s.slot = none ∧
        ((∃ a, t = s.takeBranch a) ∨ t = s.passBranch ∨ t = s.nullifySlot)) := by
  unfold cop1Word at h
  split at h
  · exact .inr (.inl ⟨_, _, 0, (Host.Outcome.next.inj (cop1Move_next h)).symm⟩)
  · exact .inr (.inl ⟨_, _, _, (Host.Outcome.next.inj (cop1Move_next h)).symm⟩)
  · exact .inr (.inr (.inl ⟨_, _, (Host.Outcome.next.inj (cop1Move_next h)).symm⟩))
  · exact .inr (.inr (.inr (.inl ⟨_, _, (Host.Outcome.next.inj (cop1Move_next h)).symm⟩)))
  · next he =>
    exact (cop1Branch_next h).imp_right fun hb => .inr (.inr (.inr ⟨he, hb⟩))
  · split at h
    · simp at h
    · exact .inl ⟨_, raise_next.mp h⟩

theorem onDoubleword_next {rt : Reg} {a : Word} {e : Exception} {s t : State} {k : Result}
    (h : onDoubleword rt a e s k = .next t) : t = withTrap s e ∨ k = .next t := by
  unfold onDoubleword at h
  split at h
  · simp at h
  · split at h
    · exact .inl (raise_next.mp h)
    · exact .inr h

theorem undefinedCop2_next {i : Instr} {s t : State} (h : undefinedCop2 i s = .next t) :
    (s.cu2 = false ∧ t = withTrap s (.coprocessorUnusable 2#2)) ∨
      (s.cu2 = true ∧ t = withTrap s (.reservedInstruction (encode i))) := by
  unfold undefinedCop2 at h
  split at h
  · next hc => exact .inl ⟨by simpa using hc, raise_next.mp h⟩
  · next hc => exact .inr ⟨by simpa using hc, raise_next.mp h⟩

/-! ### Vector instructions -/

theorem vecInt_next {i : Instr} {vw : VReg} {ab : Pairs} {f : Word → Word → Word} {s t : State}
    (h : vecInt i vw ab f s = .next t) :
    (∃ e, t = withTrap s e) ∨
      (vecReady i s ∧ t = (s.setElems vw s.vlr.toNat (fun e => f (ab.val e).1 (ab.val e).2) ab.waits).advance) := by
  rcases vecIssue_next h with h | ⟨hr, h⟩
  · exact .inl h
  · exact .inr ⟨hr, (Host.Outcome.next.inj h).symm⟩

theorem vecIntOvf_next {i : Instr} {vw : VReg} {ab : Pairs} {f : Word → Word → BitVec 33} {s t : State}
    (h : vecIntOvf i vw ab f s = .next t) :
    (∃ e, t = withTrap s e) ∨
      (vecReady i s ∧
        t = ((s.setElems vw s.vlr.toNat (fun e => (f (ab.val e).1 (ab.val e).2).setWidth 32)
          ab.waits).orVovf s.vlr.toNat fun e => overflows (f (ab.val e).1 (ab.val e).2)).advance) := by
  rcases vecIssue_next h with h | ⟨hr, h⟩
  · exact .inl h
  · exact .inr ⟨hr, (Host.Outcome.next.inj h).symm⟩

theorem vecSet_next {i : Instr} {vw : VReg} {ab : Pairs} {p : Word → Word → Bool} {s t : State}
    (h : vecSet i vw ab p s = .next t) :
    (∃ e, t = withTrap s e) ∨
      (vecReady i s ∧
        t = (s.setElems vw s.vlr.toNat (fun e => boolWord (p (ab.val e).1 (ab.val e).2)) ab.waits).advance) := by
  rcases vecIssue_next h with h | ⟨hr, h⟩
  · exact .inl h
  · exact .inr ⟨hr, (Host.Outcome.next.inj h).symm⟩

theorem vecFlag_next {i : Instr} {ab : Pairs} {p : Word → Word → Bool} {s t : State}
    (h : vecFlag i ab p s = .next t) :
    (∃ e, t = withTrap s e) ∨
      (vecReady i s ∧ t = (s.putVcond s.vlr.toNat fun e => p (ab.val e).1 (ab.val e).2).advance) := by
  rcases vecIssue_next h with h | ⟨hr, h⟩
  · exact .inl h
  · exact .inr ⟨hr, (Host.Outcome.next.inj h).symm⟩

theorem vecCmov_next {i : Instr} {c : ZeroCond} {vw : VReg} {ab : Pairs} {s t : State}
    (h : vecCmov i c vw ab s = .next t) :
    (∃ e, t = withTrap s e) ∨
      (vecReady i s ∧
        t = (s.setElemsWhere vw s.vlr.toNat (fun e => c.holds (ab.val e).1.toInt)
          (fun e => (ab.val e).2)
          (ab.waitsOn fun e => (true, c.holds (ab.val e).1.toInt))).advance) := by
  rcases vecIssue_next h with h | ⟨hr, h⟩
  · exact .inl h
  · exact .inr ⟨hr, (Host.Outcome.next.inj h).symm⟩

/-- What a fixed-point instruction can answer: it writes elements of `vw`, sticky bits of vsat and the
count of free values, and nothing else (R382, R395, R411). -/
theorem fixedPoint_next {i : Instr} {k : FxKind} {vw : VReg} {ab : Pairs} {rd : Reg} {s t : State}
    (h : fixedPoint i k vw ab rd s = .next t) :
    (∃ e, t = withTrap s e) ∨
      (vecReady i s ∧ ∃ w f u p d, t = (((s.setElemsWhere vw s.vlr.toNat w f
        (ab.waitsOn u)).orVsat s.vlr.toNat p).consume d).advance) := by
  rcases vecIssue_next h with h | ⟨hr, h⟩
  · exact .inl h
  · refine .inr ⟨hr, ?_⟩
    split at h
    · unfold fxArch at h
      split at h
      · simp at h
      · split at h
        · simp at h
        · exact ⟨_, _, _, _, 0, (Host.Outcome.next.inj h).symm⟩
    · unfold fxT0 at h
      split at h
      · simp at h
      · split at h
        · simp at h
        · exact ⟨_, _, _, _, _, (Host.Outcome.next.inj h).symm⟩

theorem vecLoad_next {vd : VReg} {addrs : Addrs} {aw : Waits} {w : Width} {n : Nat} {s t : State}
    {k : State → Result} (h : vecLoad vd addrs aw w n s k = .next t) :
    (∃ e, t = withTrap s e) ∨
      (accessible s (vecAccesses .read addrs w.size n aw) ∧
        k ((s.record (vecAccesses .read addrs w.size n aw)).setElems vd n
          (fun i => w.widen (s.load (addrs i) w.size))
          fun i => (s.pending.length + i.val) :: aw i) = .next t) := by
  rcases accessing_next h with ⟨a, h⟩ | h
  · exact .inl ⟨_, h⟩
  · exact .inr h

theorem vecStore_next {vd : VReg} {addrs : Addrs} {aw : Waits} {w : Width} {n : Nat} {s t : State}
    {k : State → Result} (h : vecStore vd addrs aw w n s k = .next t) :
    (∃ e, t = withTrap s e) ∨
      (accessible s (vecAccesses .write addrs w.size n fun i => s.waitsOf vd i ++ aw i) ∧
        k (((s.record (vecAccesses .write addrs w.size n fun i => s.waitsOf vd i ++ aw i)).storeElems addrs w.size n
          fun i => s.elem vd i).consume n) = .next t) := by
  rcases accessing_next h with ⟨a, h⟩ | h
  · exact .inl ⟨_, h⟩
  · exact .inr h

theorem alignedElems_next {addrs : Addrs} {size n : Nat} {s t : State} {k : Result}
    (h : alignedElems addrs size n s k = .next t) :
    (∃ e, t = withTrap s e) ∨ (firstMisaligned addrs size n = none ∧ k = .next t) := by
  unfold alignedElems at h
  split at h
  · exact .inl ⟨_, raise_next.mp h⟩
  · next hm => exact .inr ⟨hm, h⟩

theorem unitStride_next {i : Instr} {tr : Transfer} {w : Width} {vd : VReg} {rd rt : Reg} {s t : State}
    (h : unitStride i tr w vd rd rt s = .next t) :
    (∃ e, t = withTrap s e) ∨
      (vecReady i s ∧ rd ≠ rt ∧ tr vd (s.unitAddrs rd w.size) noWaits w s.vlr.toNat s
        (fun u => .next (u.setReg rd (s.reg rd + s.reg rt)).advance) = .next t) := by
  rcases vecIssue_next h with h | ⟨hr, h⟩
  · exact .inl h
  · split at h
    · simp at h
    · next hrd =>
      split at h
      · exact .inl ⟨_, raise_next.mp h⟩
      · exact .inr ⟨hr, hrd, h⟩

theorem addressed_next {i : Instr} {tr : Transfer} {w : Width} {vd : VReg} {addrs : Addrs}
    {aw : Waits} {s t : State} (h : addressed i tr w vd addrs aw s = .next t) :
    (∃ e, t = withTrap s e) ∨
      (vecReady i s ∧ tr vd addrs aw w s.vlr.toNat s (fun u => .next u.advance) = .next t) := by
  rcases vecIssue_next h with h | ⟨hr, h⟩
  · exact .inl h
  · rcases alignedElems_next h with h | ⟨_, h⟩
    · exact .inl h
    · exact .inr ⟨hr, h⟩

end Sys2Proof.Machine
end

