-- ==== Sys2Proof/Laws/Frames.lean ====
section
/-! SUPPORT. Reading a general register, a vector element or a byte after each state update, and the
frames of the common shapes of instruction. -/

namespace Sys2Proof.Machine

open Sys2Proof.Safety

variable (s : State)

/-! ### Vector stores write memory alone -/

@[simp] theorem storeElems_params (addrs : Addrs) (size n : Nat) (f : Elem → Word) : (s.storeElems addrs size n f).params = s.params := by
  rw [storeElems_only_mem]
@[simp] theorem storeElems_regs (addrs : Addrs) (size n : Nat) (f : Elem → Word) : (s.storeElems addrs size n f).regs = s.regs := by
  rw [storeElems_only_mem]
@[simp] theorem storeElems_hi (addrs : Addrs) (size n : Nat) (f : Elem → Word) : (s.storeElems addrs size n f).hi = s.hi := by
  rw [storeElems_only_mem]
@[simp] theorem storeElems_lo (addrs : Addrs) (size n : Nat) (f : Elem → Word) : (s.storeElems addrs size n f).lo = s.lo := by
  rw [storeElems_only_mem]
@[simp] theorem storeElems_hiFromMul (addrs : Addrs) (size n : Nat) (f : Elem → Word) : (s.storeElems addrs size n f).hiFromMul = s.hiFromMul := by
  rw [storeElems_only_mem]
@[simp] theorem storeElems_loFromMul (addrs : Addrs) (size n : Nat) (f : Elem → Word) : (s.storeElems addrs size n f).loFromMul = s.loFromMul := by
  rw [storeElems_only_mem]
@[simp] theorem storeElems_pc (addrs : Addrs) (size n : Nat) (f : Elem → Word) : (s.storeElems addrs size n f).pc = s.pc := by
  rw [storeElems_only_mem]
@[simp] theorem storeElems_npc (addrs : Addrs) (size n : Nat) (f : Elem → Word) : (s.storeElems addrs size n f).npc = s.npc := by
  rw [storeElems_only_mem]
@[simp] theorem storeElems_slot (addrs : Addrs) (size n : Nat) (f : Elem → Word) : (s.storeElems addrs size n f).slot = s.slot := by
  rw [storeElems_only_mem]
@[simp] theorem storeElems_acrossTop (addrs : Addrs) (size n : Nat) (f : Elem → Word) : (s.storeElems addrs size n f).acrossTop = s.acrossTop := by
  rw [storeElems_only_mem]
@[simp] theorem storeElems_vregs (addrs : Addrs) (size n : Nat) (f : Elem → Word) : (s.storeElems addrs size n f).vregs = s.vregs := by
  rw [storeElems_only_mem]
@[simp] theorem storeElems_waits (addrs : Addrs) (size n : Nat) (f : Elem → Word) : (s.storeElems addrs size n f).waits = s.waits := by
  rw [storeElems_only_mem]
@[simp] theorem storeElems_vcount (addrs : Addrs) (size n : Nat) (f : Elem → Word) : (s.storeElems addrs size n f).vcount = s.vcount := by
  rw [storeElems_only_mem]
@[simp] theorem storeElems_vlr (addrs : Addrs) (size n : Nat) (f : Elem → Word) : (s.storeElems addrs size n f).vlr = s.vlr := by
  rw [storeElems_only_mem]
@[simp] theorem storeElems_vcond (addrs : Addrs) (size n : Nat) (f : Elem → Word) : (s.storeElems addrs size n f).vcond = s.vcond := by
  rw [storeElems_only_mem]
@[simp] theorem storeElems_vovf (addrs : Addrs) (size n : Nat) (f : Elem → Word) : (s.storeElems addrs size n f).vovf = s.vovf := by
  rw [storeElems_only_mem]
@[simp] theorem storeElems_vsat (addrs : Addrs) (size n : Nat) (f : Elem → Word) : (s.storeElems addrs size n f).vsat = s.vsat := by
  rw [storeElems_only_mem]
@[simp] theorem storeElems_cu2 (addrs : Addrs) (size n : Nat) (f : Elem → Word) : (s.storeElems addrs size n f).cu2 = s.cu2 := by
  rw [storeElems_only_mem]
@[simp] theorem storeElems_fpr (addrs : Addrs) (size n : Nat) (f : Elem → Word) : (s.storeElems addrs size n f).fpr = s.fpr := by
  rw [storeElems_only_mem]
@[simp] theorem storeElems_fcr0 (addrs : Addrs) (size n : Nat) (f : Elem → Word) : (s.storeElems addrs size n f).fcr0 = s.fcr0 := by
  rw [storeElems_only_mem]
@[simp] theorem storeElems_fcr31 (addrs : Addrs) (size n : Nat) (f : Elem → Word) : (s.storeElems addrs size n f).fcr31 = s.fcr31 := by
  rw [storeElems_only_mem]
@[simp] theorem storeElems_llBit (addrs : Addrs) (size n : Nat) (f : Elem → Word) : (s.storeElems addrs size n f).llBit = s.llBit := by
  rw [storeElems_only_mem]
@[simp] theorem storeElems_llAddr (addrs : Addrs) (size n : Nat) (f : Elem → Word) : (s.storeElems addrs size n f).llAddr = s.llAddr := by
  rw [storeElems_only_mem]
@[simp] theorem storeElems_llClean (addrs : Addrs) (size n : Nat) (f : Elem → Word) : (s.storeElems addrs size n f).llClean = s.llClean := by
  rw [storeElems_only_mem]
@[simp] theorem storeElems_pending (addrs : Addrs) (size n : Nat) (f : Elem → Word) : (s.storeElems addrs size n f).pending = s.pending := by
  rw [storeElems_only_mem]
@[simp] theorem storeElems_stored (addrs : Addrs) (size n : Nat) (f : Elem → Word) : (s.storeElems addrs size n f).stored = s.stored := by
  rw [storeElems_only_mem]
@[simp] theorem storeElems_draws (addrs : Addrs) (size n : Nat) (f : Elem → Word) : (s.storeElems addrs size n f).draws = s.draws := by
  rw [storeElems_only_mem]
@[simp] theorem storeElems_trap (addrs : Addrs) (size n : Nat) (f : Elem → Word) : (s.storeElems addrs size n f).trap = s.trap := by
  rw [storeElems_only_mem]

/-! ### Reading what an update does not touch -/

@[simp] theorem elem_setReg (r : Reg) (v : Word) (q : VReg) (e : Elem) : (s.setReg r v).elem q e = s.elem q e :=
  elem_congr (setReg_vregs s r v) q e
@[simp] theorem waitsOf_setReg (r : Reg) (v : Word) (q : VReg) (e : Elem) : (s.setReg r v).waitsOf q e = s.waitsOf q e :=
  waitsOf_congr (setReg_waits s r v) q e
@[simp] theorem fgr_setReg (r : Reg) (v : Word) (q : Reg) : (s.setReg r v).fgr q = s.fgr q :=
  fgr_congr (setReg_fpr s r v) q
@[simp] theorem byte_setReg (r : Reg) (v : Word) (x : Word) : (s.setReg r v).byte x = s.byte x :=
  byte_congr (setReg_mem s r v) x
@[simp] theorem reg_setVreg (k : VReg) (v : VecReg) (q : Reg) : (s.setVreg k v).reg q = s.reg q :=
  reg_congr (setVreg_regs s k v) q
@[simp] theorem fgr_setVreg (k : VReg) (v : VecReg) (q : Reg) : (s.setVreg k v).fgr q = s.fgr q :=
  fgr_congr (setVreg_fpr s k v) q
@[simp] theorem byte_setVreg (k : VReg) (v : VecReg) (x : Word) : (s.setVreg k v).byte x = s.byte x :=
  byte_congr (setVreg_mem s k v) x
@[simp] theorem reg_setWaits (k : VReg) (n : Nat) (d : Waits) (q : Reg) : (s.setWaits k n d).reg q = s.reg q :=
  reg_congr (setWaits_regs s k n d) q
@[simp] theorem fgr_setWaits (k : VReg) (n : Nat) (d : Waits) (q : Reg) : (s.setWaits k n d).fgr q = s.fgr q :=
  fgr_congr (setWaits_fpr s k n d) q
@[simp] theorem byte_setWaits (k : VReg) (n : Nat) (d : Waits) (x : Word) : (s.setWaits k n d).byte x = s.byte x :=
  byte_congr (setWaits_mem s k n d) x
@[simp] theorem reg_setElemsWhere (k : VReg) (n : Nat) (w : Elem → Bool) (f : Elem → Word) (d : Waits) (q : Reg) : (s.setElemsWhere k n w f d).reg q = s.reg q :=
  reg_congr (setElemsWhere_regs s k n w f d) q
@[simp] theorem fgr_setElemsWhere (k : VReg) (n : Nat) (w : Elem → Bool) (f : Elem → Word) (d : Waits) (q : Reg) : (s.setElemsWhere k n w f d).fgr q = s.fgr q :=
  fgr_congr (setElemsWhere_fpr s k n w f d) q
@[simp] theorem byte_setElemsWhere (k : VReg) (n : Nat) (w : Elem → Bool) (f : Elem → Word) (d : Waits) (x : Word) : (s.setElemsWhere k n w f d).byte x = s.byte x :=
  byte_congr (setElemsWhere_mem s k n w f d) x
@[simp] theorem reg_setElems (k : VReg) (n : Nat) (f : Elem → Word) (d : Waits) (q : Reg) : (s.setElems k n f d).reg q = s.reg q :=
  reg_congr (setElems_regs s k n f d) q
@[simp] theorem fgr_setElems (k : VReg) (n : Nat) (f : Elem → Word) (d : Waits) (q : Reg) : (s.setElems k n f d).fgr q = s.fgr q :=
  fgr_congr (setElems_fpr s k n f d) q
@[simp] theorem byte_setElems (k : VReg) (n : Nat) (f : Elem → Word) (d : Waits) (x : Word) : (s.setElems k n f d).byte x = s.byte x :=
  byte_congr (setElems_mem s k n f d) x
@[simp] theorem reg_setFgr (r : Reg) (v : Word) (q : Reg) : (s.setFgr r v).reg q = s.reg q :=
  reg_congr (setFgr_regs s r v) q
@[simp] theorem elem_setFgr (r : Reg) (v : Word) (q : VReg) (e : Elem) : (s.setFgr r v).elem q e = s.elem q e :=
  elem_congr (setFgr_vregs s r v) q e
@[simp] theorem waitsOf_setFgr (r : Reg) (v : Word) (q : VReg) (e : Elem) : (s.setFgr r v).waitsOf q e = s.waitsOf q e :=
  waitsOf_congr (setFgr_waits s r v) q e
@[simp] theorem byte_setFgr (r : Reg) (v : Word) (x : Word) : (s.setFgr r v).byte x = s.byte x :=
  byte_congr (setFgr_mem s r v) x
@[simp] theorem reg_setFcr (r : Reg) (v : Word) (q : Reg) : (s.setFcr r v).reg q = s.reg q :=
  reg_congr (setFcr_regs s r v) q
@[simp] theorem elem_setFcr (r : Reg) (v : Word) (q : VReg) (e : Elem) : (s.setFcr r v).elem q e = s.elem q e :=
  elem_congr (setFcr_vregs s r v) q e
@[simp] theorem waitsOf_setFcr (r : Reg) (v : Word) (q : VReg) (e : Elem) : (s.setFcr r v).waitsOf q e = s.waitsOf q e :=
  waitsOf_congr (setFcr_waits s r v) q e
@[simp] theorem fgr_setFcr (r : Reg) (v : Word) (q : Reg) : (s.setFcr r v).fgr q = s.fgr q :=
  fgr_congr (setFcr_fpr s r v) q
@[simp] theorem byte_setFcr (r : Reg) (v : Word) (x : Word) : (s.setFcr r v).byte x = s.byte x :=
  byte_congr (setFcr_mem s r v) x
@[simp] theorem reg_advance (q : Reg) : (s.advance).reg q = s.reg q :=
  reg_congr (advance_regs s) q
@[simp] theorem elem_advance (q : VReg) (e : Elem) : (s.advance).elem q e = s.elem q e :=
  elem_congr (advance_vregs s) q e
@[simp] theorem waitsOf_advance (q : VReg) (e : Elem) : (s.advance).waitsOf q e = s.waitsOf q e :=
  waitsOf_congr (advance_waits s) q e
@[simp] theorem fgr_advance (q : Reg) : (s.advance).fgr q = s.fgr q :=
  fgr_congr (advance_fpr s) q
@[simp] theorem byte_advance (x : Word) : (s.advance).byte x = s.byte x :=
  byte_congr (advance_mem s) x
@[simp] theorem reg_takeBranch (a : Word) (q : Reg) : (s.takeBranch a).reg q = s.reg q :=
  reg_congr (takeBranch_regs s a) q
@[simp] theorem elem_takeBranch (a : Word) (q : VReg) (e : Elem) : (s.takeBranch a).elem q e = s.elem q e :=
  elem_congr (takeBranch_vregs s a) q e
@[simp] theorem waitsOf_takeBranch (a : Word) (q : VReg) (e : Elem) : (s.takeBranch a).waitsOf q e = s.waitsOf q e :=
  waitsOf_congr (takeBranch_waits s a) q e
@[simp] theorem fgr_takeBranch (a : Word) (q : Reg) : (s.takeBranch a).fgr q = s.fgr q :=
  fgr_congr (takeBranch_fpr s a) q
@[simp] theorem byte_takeBranch (a : Word) (x : Word) : (s.takeBranch a).byte x = s.byte x :=
  byte_congr (takeBranch_mem s a) x
@[simp] theorem reg_passBranch (q : Reg) : (s.passBranch).reg q = s.reg q :=
  reg_congr (passBranch_regs s) q
@[simp] theorem elem_passBranch (q : VReg) (e : Elem) : (s.passBranch).elem q e = s.elem q e :=
  elem_congr (passBranch_vregs s) q e
@[simp] theorem waitsOf_passBranch (q : VReg) (e : Elem) : (s.passBranch).waitsOf q e = s.waitsOf q e :=
  waitsOf_congr (passBranch_waits s) q e
@[simp] theorem fgr_passBranch (q : Reg) : (s.passBranch).fgr q = s.fgr q :=
  fgr_congr (passBranch_fpr s) q
@[simp] theorem byte_passBranch (x : Word) : (s.passBranch).byte x = s.byte x :=
  byte_congr (passBranch_mem s) x
@[simp] theorem reg_nullifySlot (q : Reg) : (s.nullifySlot).reg q = s.reg q :=
  reg_congr (nullifySlot_regs s) q
@[simp] theorem elem_nullifySlot (q : VReg) (e : Elem) : (s.nullifySlot).elem q e = s.elem q e :=
  elem_congr (nullifySlot_vregs s) q e
@[simp] theorem waitsOf_nullifySlot (q : VReg) (e : Elem) : (s.nullifySlot).waitsOf q e = s.waitsOf q e :=
  waitsOf_congr (nullifySlot_waits s) q e
@[simp] theorem fgr_nullifySlot (q : Reg) : (s.nullifySlot).fgr q = s.fgr q :=
  fgr_congr (nullifySlot_fpr s) q
@[simp] theorem byte_nullifySlot (x : Word) : (s.nullifySlot).byte x = s.byte x :=
  byte_congr (nullifySlot_mem s) x
@[simp] theorem reg_consume (n : Nat) (q : Reg) : (s.consume n).reg q = s.reg q :=
  reg_congr (consume_regs s n) q
@[simp] theorem elem_consume (n : Nat) (q : VReg) (e : Elem) : (s.consume n).elem q e = s.elem q e :=
  elem_congr (consume_vregs s n) q e
@[simp] theorem waitsOf_consume (n : Nat) (q : VReg) (e : Elem) : (s.consume n).waitsOf q e = s.waitsOf q e :=
  waitsOf_congr (consume_waits s n) q e
@[simp] theorem fgr_consume (n : Nat) (q : Reg) : (s.consume n).fgr q = s.fgr q :=
  fgr_congr (consume_fpr s n) q
@[simp] theorem byte_consume (n : Nat) (x : Word) : (s.consume n).byte x = s.byte x :=
  byte_congr (consume_mem s n) x
@[simp] theorem reg_orVovf (n : Nat) (p : Elem → Bool) (q : Reg) : (s.orVovf n p).reg q = s.reg q :=
  reg_congr (orVovf_regs s n p) q
@[simp] theorem elem_orVovf (n : Nat) (p : Elem → Bool) (q : VReg) (e : Elem) : (s.orVovf n p).elem q e = s.elem q e :=
  elem_congr (orVovf_vregs s n p) q e
@[simp] theorem waitsOf_orVovf (n : Nat) (p : Elem → Bool) (q : VReg) (e : Elem) : (s.orVovf n p).waitsOf q e = s.waitsOf q e :=
  waitsOf_congr (orVovf_waits s n p) q e
@[simp] theorem fgr_orVovf (n : Nat) (p : Elem → Bool) (q : Reg) : (s.orVovf n p).fgr q = s.fgr q :=
  fgr_congr (orVovf_fpr s n p) q
@[simp] theorem byte_orVovf (n : Nat) (p : Elem → Bool) (x : Word) : (s.orVovf n p).byte x = s.byte x :=
  byte_congr (orVovf_mem s n p) x
@[simp] theorem reg_orVsat (n : Nat) (p : Elem → Bool) (q : Reg) : (s.orVsat n p).reg q = s.reg q :=
  reg_congr (orVsat_regs s n p) q
@[simp] theorem elem_orVsat (n : Nat) (p : Elem → Bool) (q : VReg) (e : Elem) : (s.orVsat n p).elem q e = s.elem q e :=
  elem_congr (orVsat_vregs s n p) q e
@[simp] theorem waitsOf_orVsat (n : Nat) (p : Elem → Bool) (q : VReg) (e : Elem) : (s.orVsat n p).waitsOf q e = s.waitsOf q e :=
  waitsOf_congr (orVsat_waits s n p) q e
@[simp] theorem fgr_orVsat (n : Nat) (p : Elem → Bool) (q : Reg) : (s.orVsat n p).fgr q = s.fgr q :=
  fgr_congr (orVsat_fpr s n p) q
@[simp] theorem byte_orVsat (n : Nat) (p : Elem → Bool) (x : Word) : (s.orVsat n p).byte x = s.byte x :=
  byte_congr (orVsat_mem s n p) x
@[simp] theorem reg_putVcond (n : Nat) (p : Elem → Bool) (q : Reg) : (s.putVcond n p).reg q = s.reg q :=
  reg_congr (putVcond_regs s n p) q
@[simp] theorem elem_putVcond (n : Nat) (p : Elem → Bool) (q : VReg) (e : Elem) : (s.putVcond n p).elem q e = s.elem q e :=
  elem_congr (putVcond_vregs s n p) q e
@[simp] theorem waitsOf_putVcond (n : Nat) (p : Elem → Bool) (q : VReg) (e : Elem) : (s.putVcond n p).waitsOf q e = s.waitsOf q e :=
  waitsOf_congr (putVcond_waits s n p) q e
@[simp] theorem fgr_putVcond (n : Nat) (p : Elem → Bool) (q : Reg) : (s.putVcond n p).fgr q = s.fgr q :=
  fgr_congr (putVcond_fpr s n p) q
@[simp] theorem byte_putVcond (n : Nat) (p : Elem → Bool) (x : Word) : (s.putVcond n p).byte x = s.byte x :=
  byte_congr (putVcond_mem s n p) x
@[simp] theorem reg_setHiLo (u v : Word) (q : Reg) : (s.setHiLo u v).reg q = s.reg q :=
  reg_congr (setHiLo_regs s u v) q
@[simp] theorem elem_setHiLo (u v : Word) (q : VReg) (e : Elem) : (s.setHiLo u v).elem q e = s.elem q e :=
  elem_congr (setHiLo_vregs s u v) q e
@[simp] theorem waitsOf_setHiLo (u v : Word) (q : VReg) (e : Elem) : (s.setHiLo u v).waitsOf q e = s.waitsOf q e :=
  waitsOf_congr (setHiLo_waits s u v) q e
@[simp] theorem fgr_setHiLo (u v : Word) (q : Reg) : (s.setHiLo u v).fgr q = s.fgr q :=
  fgr_congr (setHiLo_fpr s u v) q
@[simp] theorem byte_setHiLo (u v : Word) (x : Word) : (s.setHiLo u v).byte x = s.byte x :=
  byte_congr (setHiLo_mem s u v) x
@[simp] theorem reg_moveToHi (v : Word) (q : Reg) : (s.moveToHi v).reg q = s.reg q :=
  reg_congr (moveToHi_regs s v) q
@[simp] theorem elem_moveToHi (v : Word) (q : VReg) (e : Elem) : (s.moveToHi v).elem q e = s.elem q e :=
  elem_congr (moveToHi_vregs s v) q e
@[simp] theorem waitsOf_moveToHi (v : Word) (q : VReg) (e : Elem) : (s.moveToHi v).waitsOf q e = s.waitsOf q e :=
  waitsOf_congr (moveToHi_waits s v) q e
@[simp] theorem fgr_moveToHi (v : Word) (q : Reg) : (s.moveToHi v).fgr q = s.fgr q :=
  fgr_congr (moveToHi_fpr s v) q
@[simp] theorem byte_moveToHi (v : Word) (x : Word) : (s.moveToHi v).byte x = s.byte x :=
  byte_congr (moveToHi_mem s v) x
@[simp] theorem reg_moveToLo (v : Word) (q : Reg) : (s.moveToLo v).reg q = s.reg q :=
  reg_congr (moveToLo_regs s v) q
@[simp] theorem elem_moveToLo (v : Word) (q : VReg) (e : Elem) : (s.moveToLo v).elem q e = s.elem q e :=
  elem_congr (moveToLo_vregs s v) q e
@[simp] theorem waitsOf_moveToLo (v : Word) (q : VReg) (e : Elem) : (s.moveToLo v).waitsOf q e = s.waitsOf q e :=
  waitsOf_congr (moveToLo_waits s v) q e
@[simp] theorem fgr_moveToLo (v : Word) (q : Reg) : (s.moveToLo v).fgr q = s.fgr q :=
  fgr_congr (moveToLo_fpr s v) q
@[simp] theorem byte_moveToLo (v : Word) (x : Word) : (s.moveToLo v).byte x = s.byte x :=
  byte_congr (moveToLo_mem s v) x
@[simp] theorem reg_store (a : Word) (n : Nat) (w : Word) (q : Reg) : (s.store a n w).reg q = s.reg q :=
  reg_congr (store_regs s a n w) q
@[simp] theorem elem_store (a : Word) (n : Nat) (w : Word) (q : VReg) (e : Elem) : (s.store a n w).elem q e = s.elem q e :=
  elem_congr (store_vregs s a n w) q e
@[simp] theorem waitsOf_store (a : Word) (n : Nat) (w : Word) (q : VReg) (e : Elem) : (s.store a n w).waitsOf q e = s.waitsOf q e :=
  waitsOf_congr (store_waits s a n w) q e
@[simp] theorem fgr_store (a : Word) (n : Nat) (w : Word) (q : Reg) : (s.store a n w).fgr q = s.fgr q :=
  fgr_congr (store_fpr s a n w) q
@[simp] theorem reg_record (new : List Access) (q : Reg) : (s.record new).reg q = s.reg q :=
  reg_congr (record_regs s new) q
@[simp] theorem elem_record (new : List Access) (q : VReg) (e : Elem) : (s.record new).elem q e = s.elem q e :=
  elem_congr (record_vregs s new) q e
@[simp] theorem waitsOf_record (new : List Access) (q : VReg) (e : Elem) : (s.record new).waitsOf q e = s.waitsOf q e :=
  waitsOf_congr (record_waits s new) q e
@[simp] theorem fgr_record (new : List Access) (q : Reg) : (s.record new).fgr q = s.fgr q :=
  fgr_congr (record_fpr s new) q
@[simp] theorem byte_record (new : List Access) (x : Word) : (s.record new).byte x = s.byte x :=
  byte_congr (record_mem s new) x
@[simp] theorem reg_syncMemory (q : Reg) : (s.syncMemory).reg q = s.reg q :=
  reg_congr (syncMemory_regs s) q
@[simp] theorem elem_syncMemory (q : VReg) (e : Elem) : (s.syncMemory).elem q e = s.elem q e :=
  elem_congr (syncMemory_vregs s) q e
@[simp] theorem fgr_syncMemory (q : Reg) : (s.syncMemory).fgr q = s.fgr q :=
  fgr_congr (syncMemory_fpr s) q
@[simp] theorem byte_syncMemory (x : Word) : (s.syncMemory).byte x = s.byte x :=
  byte_congr (syncMemory_mem s) x
@[simp] theorem reg_afterVcrRead (cs : BitVec 5) (q : Reg) : (s.afterVcrRead cs).reg q = s.reg q :=
  reg_congr (afterVcrRead_regs s cs) q
@[simp] theorem elem_afterVcrRead (cs : BitVec 5) (q : VReg) (e : Elem) : (s.afterVcrRead cs).elem q e = s.elem q e :=
  elem_congr (afterVcrRead_vregs s cs) q e
@[simp] theorem waitsOf_afterVcrRead (cs : BitVec 5) (q : VReg) (e : Elem) : (s.afterVcrRead cs).waitsOf q e = s.waitsOf q e :=
  waitsOf_congr (afterVcrRead_waits s cs) q e
@[simp] theorem fgr_afterVcrRead (cs : BitVec 5) (q : Reg) : (s.afterVcrRead cs).fgr q = s.fgr q :=
  fgr_congr (afterVcrRead_fpr s cs) q
@[simp] theorem byte_afterVcrRead (cs : BitVec 5) (x : Word) : (s.afterVcrRead cs).byte x = s.byte x :=
  byte_congr (afterVcrRead_mem s cs) x
@[simp] theorem reg_storeElems (addrs : Addrs) (size n : Nat) (f : Elem → Word) (q : Reg) : (s.storeElems addrs size n f).reg q = s.reg q :=
  reg_congr (storeElems_regs s addrs size n f) q
@[simp] theorem elem_storeElems (addrs : Addrs) (size n : Nat) (f : Elem → Word) (q : VReg) (e : Elem) : (s.storeElems addrs size n f).elem q e = s.elem q e :=
  elem_congr (storeElems_vregs s addrs size n f) q e
@[simp] theorem waitsOf_storeElems (addrs : Addrs) (size n : Nat) (f : Elem → Word) (q : VReg) (e : Elem) : (s.storeElems addrs size n f).waitsOf q e = s.waitsOf q e :=
  waitsOf_congr (storeElems_waits s addrs size n f) q e
@[simp] theorem fgr_storeElems (addrs : Addrs) (size n : Nat) (f : Elem → Word) (q : Reg) : (s.storeElems addrs size n f).fgr q = s.fgr q :=
  fgr_congr (storeElems_fpr s addrs size n f) q

/-! ### Frames -/

/-- An instruction that only advances the program counter. -/
theorem frame_advance (m : Touches) : Frame m s s.advance := by
  constructor <;> simp

/-- An instruction that writes one general register. -/
theorem frame_setReg (rd : Reg) (v : Word) : Frame { regs := [rd] } s (s.setReg rd v).advance := by
  constructor <;> simp
  intro r h
  rw [reg_setReg]
  split
  · next hr => rcases h with h | h
               · exact absurd hr.1 h
               · exact absurd (hr.1 ▸ h) hr.2
  · rfl

/-- A vector register is written through one operation, which leaves the other registers alone and
discards a write to `$vr0`. -/
theorem elem_setElemsWhere_keeps (k q : VReg) (n : Nat) (w : Elem → Bool) (f : Elem → Word) (d : Waits)
    (e : Elem) (h : q ≠ k ∨ q = 0#5) : (s.setElemsWhere k n w f d).elem q e = s.elem q e := by
  by_cases hk : q = k
  · subst hk
    rcases h with h | h
    · exact absurd rfl h
    · subst h; rfl
  · exact elem_setElemsWhere_other s k q n w f d e hk

theorem elem_setElems_keeps (k q : VReg) (n : Nat) (f : Elem → Word) (d : Waits) (e : Elem)
    (h : q ≠ k ∨ q = 0#5) : (s.setElems k n f d).elem q e = s.elem q e :=
  elem_setElemsWhere_keeps s k q n _ f d e h

/-- The same operation leaves alone the loads that the other registers come from. -/
theorem waitsOf_setElemsWhere_keeps (k q : VReg) (n : Nat) (w : Elem → Bool) (f : Elem → Word)
    (d : Waits) (e : Elem) (h : q ≠ k ∨ q = 0#5) :
    (s.setElemsWhere k n w f d).waitsOf q e = s.waitsOf q e := by
  by_cases hk : q = k
  · subst hk
    rcases h with h | h
    · exact absurd rfl h
    · subst h; rfl
  · exact waitsOf_setElemsWhere_other s k q n w f d e hk

theorem waitsOf_setElems_keeps (k q : VReg) (n : Nat) (f : Elem → Word) (d : Waits) (e : Elem)
    (h : q ≠ k ∨ q = 0#5) : (s.setElems k n f d).waitsOf q e = s.waitsOf q e :=
  waitsOf_setElemsWhere_keeps s k q n _ f d e h

/-- Going on to the next instruction. -/
theorem goesOn_advance {t : State} (hp : t.pc = s.pc) (hn : t.npc = s.npc) (hs : t.slot = s.slot) :
    goesOn s t.advance := by
  refine ⟨hn, by rw [advance_npc, hn]; rfl, rfl, ?_⟩
  rw [advance_acrossTop, hp, State.inTakenSlot, hs]
  cases s.slot <;> simp [topPc]

theorem goesToSlot_takeBranch {t : State} (dest : Word) (hp : t.pc = s.pc) (hn : t.npc = s.npc) :
    goesToSlot s (t.takeBranch dest) true dest := by
  simp [goesToSlot, hp, hn, topPc]

theorem goesToSlot_passBranch {t : State} (hp : t.pc = s.pc) (hn : t.npc = s.npc) :
    goesToSlot s t.passBranch false (s.npc + 4#32) := by
  simp [goesToSlot, hp, hn, topPc]

theorem skipsSlot_nullifySlot {t : State} (hp : t.pc = s.pc) (hn : t.npc = s.npc) :
    skipsSlot s t.nullifySlot := by
  simp [skipsSlot, hp, hn, topPc]

/-- `setsReg` is what writing one register and going on gives. -/
theorem setsReg_of_writeReg {i : Instr} {s : State} {rd : Reg} {v : Word}
    (h : exec i s = writeReg rd v s) : setsReg i s rd v :=
  ⟨_, h, fun hr => by simp [reg_setReg, hr], frame_setReg s rd v, goesOn_advance s (by simp) (by simp) (by simp)⟩

theorem traps_of_raise {i : Instr} {s : State} {e : Exception} (h : exec i s = raise e s) :
    traps i s e := by
  rw [traps, h, raise_eq]

end Sys2Proof.Machine
end

