-- ==== Sys2Proof/Laws/PerInstr.lean ====
section
/-! SUPPORT. The family `RowMatch`: the word of every instruction carries the match value of its row of
the opcode table under the row's mask. -/

namespace Sys2Proof.Laws.RowMatch

/-- The mask of the row of the opcode table. -/
def mask : Instr → Word
  | .add _ _ _ => 0xFC0007FF#32
  | .addu _ _ _ => 0xFC0007FF#32
  | .sub _ _ _ => 0xFC0007FF#32
  | .subu _ _ _ => 0xFC0007FF#32
  | .and _ _ _ => 0xFC0007FF#32
  | .or _ _ _ => 0xFC0007FF#32
  | .xor _ _ _ => 0xFC0007FF#32
  | .nor _ _ _ => 0xFC0007FF#32
  | .slt _ _ _ => 0xFC0007FF#32
  | .sltu _ _ _ => 0xFC0007FF#32
  | .sll _ _ _ => 0xFFE0003F#32
  | .srl _ _ _ => 0xFFE0003F#32
  | .sra _ _ _ => 0xFFE0003F#32
  | .sllv _ _ _ => 0xFC0007FF#32
  | .srlv _ _ _ => 0xFC0007FF#32
  | .srav _ _ _ => 0xFC0007FF#32
  | .addi _ _ _ => 0xFC000000#32
  | .addiu _ _ _ => 0xFC000000#32
  | .slti _ _ _ => 0xFC000000#32
  | .sltiu _ _ _ => 0xFC000000#32
  | .andi _ _ _ => 0xFC000000#32
  | .ori _ _ _ => 0xFC000000#32
  | .xori _ _ _ => 0xFC000000#32
  | .lui _ _ => 0xFFE00000#32
  | .mult _ _ => 0xFC00FFFF#32
  | .multu _ _ => 0xFC00FFFF#32
  | .div _ _ => 0xFC00FFFF#32
  | .divu _ _ => 0xFC00FFFF#32
  | .mfhi _ => 0xFFFF07FF#32
  | .mthi _ => 0xFC1FFFFF#32
  | .mflo _ => 0xFFFF07FF#32
  | .mtlo _ => 0xFC1FFFFF#32
  | .lb _ _ _ => 0xFC000000#32
  | .lbu _ _ _ => 0xFC000000#32
  | .lh _ _ _ => 0xFC000000#32
  | .lhu _ _ _ => 0xFC000000#32
  | .lw _ _ _ => 0xFC000000#32
  | .lwl _ _ _ => 0xFC000000#32
  | .lwr _ _ _ => 0xFC000000#32
  | .sb _ _ _ => 0xFC000000#32
  | .sh _ _ _ => 0xFC000000#32
  | .sw _ _ _ => 0xFC000000#32
  | .swl _ _ _ => 0xFC000000#32
  | .swr _ _ _ => 0xFC000000#32
  | .ll _ _ _ => 0xFC000000#32
  | .sc _ _ _ => 0xFC000000#32
  | .sync => 0xFFFFFFFF#32
  | .j _ => 0xFC000000#32
  | .jal _ => 0xFC000000#32
  | .jr _ => 0xFC1FFFFF#32
  | .jalr _ _ => 0xFC1F07FF#32
  | .beq _ _ _ => 0xFC000000#32
  | .bne _ _ _ => 0xFC000000#32
  | .blez _ _ => 0xFC1F0000#32
  | .bgtz _ _ => 0xFC1F0000#32
  | .bltz _ _ => 0xFC1F0000#32
  | .bgez _ _ => 0xFC1F0000#32
  | .bltzal _ _ => 0xFC1F0000#32
  | .bgezal _ _ => 0xFC1F0000#32
  | .beql _ _ _ => 0xFC000000#32
  | .bnel _ _ _ => 0xFC000000#32
  | .blezl _ _ => 0xFC1F0000#32
  | .bgtzl _ _ => 0xFC1F0000#32
  | .bltzl _ _ => 0xFC1F0000#32
  | .bgezl _ _ => 0xFC1F0000#32
  | .bltzall _ _ => 0xFC1F0000#32
  | .bgezall _ _ => 0xFC1F0000#32
  | .tge _ _ _ => 0xFC00003F#32
  | .tgeu _ _ _ => 0xFC00003F#32
  | .tlt _ _ _ => 0xFC00003F#32
  | .tltu _ _ _ => 0xFC00003F#32
  | .teq _ _ _ => 0xFC00003F#32
  | .tne _ _ _ => 0xFC00003F#32
  | .tgei _ _ => 0xFC1F0000#32
  | .tgeiu _ _ => 0xFC1F0000#32
  | .tlti _ _ => 0xFC1F0000#32
  | .tltiu _ _ => 0xFC1F0000#32
  | .teqi _ _ => 0xFC1F0000#32
  | .tnei _ _ => 0xFC1F0000#32
  | .syscall _ => 0xFC00003F#32
  | .brk _ => 0xFC00003F#32
  | .cop0 _ => 0xFC000000#32
  | .cop1 _ => 0xFC000000#32
  | .cop3 _ => 0xFC000000#32
  | .lwc1 _ _ _ => 0xFC000000#32
  | .swc1 _ _ _ => 0xFC000000#32
  | .ldc1 _ _ _ => 0xFC000000#32
  | .sdc1 _ _ _ => 0xFC000000#32
  | .lwc2 _ _ _ => 0xFC000000#32
  | .swc2 _ _ _ => 0xFC000000#32
  | .ldc2 _ _ _ => 0xFC000000#32
  | .sdc2 _ _ _ => 0xFC000000#32
  | .lwc3 _ _ _ => 0xFC000000#32
  | .swc3 _ _ _ => 0xFC000000#32
  | .mfc2 _ => 0xFFE00000#32
  | .mtc2 _ => 0xFFE00000#32
  | .bc2f _ => 0xFFFF0000#32
  | .bc2t _ => 0xFFFF0000#32
  | .bc2fl _ => 0xFFFF0000#32
  | .bc2tl _ => 0xFFFF0000#32
  | .cfvu _ _ => 0xFFE007FF#32
  | .ctvu _ _ => 0xFFE007FF#32
  | .vextV _ _ _ => 0xFFE007E0#32
  | .vinsS _ _ _ => 0xFFE007E0#32
  | .vextS _ _ _ => 0xFFE007E0#32
  | .lbaiV _ _ _ => 0xFFE007E0#32
  | .lhaiV _ _ _ => 0xFFE007E0#32
  | .lwaiV _ _ _ => 0xFFE007E0#32
  | .lbuaiV _ _ _ => 0xFFE007E0#32
  | .lhuaiV _ _ _ => 0xFFE007E0#32
  | .lbxV _ _ _ => 0xFFE007E0#32
  | .lhxV _ _ _ => 0xFFE007E0#32
  | .lwxV _ _ _ => 0xFFE007E0#32
  | .lbuxV _ _ _ => 0xFFE007E0#32
  | .lhuxV _ _ _ => 0xFFE007E0#32
  | .lbstV _ _ _ => 0xFFE007E0#32
  | .lhstV _ _ _ => 0xFFE007E0#32
  | .lwstV _ _ _ => 0xFFE007E0#32
  | .lbustV _ _ _ => 0xFFE007E0#32
  | .lhustV _ _ _ => 0xFFE007E0#32
  | .sbaiV _ _ _ => 0xFFE007E0#32
  | .shaiV _ _ _ => 0xFFE007E0#32
  | .swaiV _ _ _ => 0xFFE007E0#32
  | .sbxV _ _ _ => 0xFFE007E0#32
  | .shxV _ _ _ => 0xFFE007E0#32
  | .swxV _ _ _ => 0xFFE007E0#32
  | .sbstV _ _ _ => 0xFFE007E0#32
  | .shstV _ _ _ => 0xFFE007E0#32
  | .swstV _ _ _ => 0xFFE007E0#32
  | .andVv _ _ _ => 0xFFE0FC00#32
  | .andVs _ _ _ => 0xFFE0FC00#32
  | .orVv _ _ _ => 0xFFE0FC00#32
  | .orVs _ _ _ => 0xFFE0FC00#32
  | .xorVv _ _ _ => 0xFFE0FC00#32
  | .xorVs _ _ _ => 0xFFE0FC00#32
  | .norVv _ _ _ => 0xFFE0FC00#32
  | .norVs _ _ _ => 0xFFE0FC00#32
  | .addVv _ _ _ => 0xFFE0FC00#32
  | .addVs _ _ _ => 0xFFE0FC00#32
  | .adduVv _ _ _ => 0xFFE0FC00#32
  | .adduVs _ _ _ => 0xFFE0FC00#32
  | .subVv _ _ _ => 0xFFE0FC00#32
  | .subVs _ _ _ => 0xFFE0FC00#32
  | .subSv _ _ _ => 0xFFE0FC00#32
  | .subuVv _ _ _ => 0xFFE0FC00#32
  | .subuVs _ _ _ => 0xFFE0FC00#32
  | .subuSv _ _ _ => 0xFFE0FC00#32
  | .sllvVv _ _ _ => 0xFFE0FC00#32
  | .sllvVs _ _ _ => 0xFFE0FC00#32
  | .sllvSv _ _ _ => 0xFFE0FC00#32
  | .sravVv _ _ _ => 0xFFE0FC00#32
  | .sravVs _ _ _ => 0xFFE0FC00#32
  | .sravSv _ _ _ => 0xFFE0FC00#32
  | .srlvVv _ _ _ => 0xFFE0FC00#32
  | .srlvVs _ _ _ => 0xFFE0FC00#32
  | .srlvSv _ _ _ => 0xFFE0FC00#32
  | .sltVv _ _ _ => 0xFFE0FC00#32
  | .sltVs _ _ _ => 0xFFE0FC00#32
  | .sltSv _ _ _ => 0xFFE0FC00#32
  | .sltuVv _ _ _ => 0xFFE0FC00#32
  | .sltuVs _ _ _ => 0xFFE0FC00#32
  | .sltuSv _ _ _ => 0xFFE0FC00#32
  | .seqVv _ _ _ => 0xFFE0FC00#32
  | .seqVs _ _ _ => 0xFFE0FC00#32
  | .fltVv _ _ => 0xFFE0FFE0#32
  | .fltVs _ _ => 0xFFE0FFE0#32
  | .fltSv _ _ => 0xFFE0FFE0#32
  | .fltuVv _ _ => 0xFFE0FFE0#32
  | .fltuVs _ _ => 0xFFE0FFE0#32
  | .fltuSv _ _ => 0xFFE0FFE0#32
  | .feqVv _ _ => 0xFFE0FFE0#32
  | .feqVs _ _ => 0xFFE0FFE0#32
  | .cmvnezVv _ _ _ => 0xFFE0FC00#32
  | .cmvgezVv _ _ _ => 0xFFE0FC00#32
  | .cmvlezVv _ _ _ => 0xFFE0FC00#32
  | .cmveqzVv _ _ _ => 0xFFE0FC00#32
  | .cmvltzVv _ _ _ => 0xFFE0FC00#32
  | .cmvgtzVv _ _ _ => 0xFFE0FC00#32
  | .cmvnezVs _ _ _ => 0xFFE0FC00#32
  | .cmvgezVs _ _ _ => 0xFFE0FC00#32
  | .cmvlezVs _ _ _ => 0xFFE0FC00#32
  | .cmveqzVs _ _ _ => 0xFFE0FC00#32
  | .cmvltzVs _ _ _ => 0xFFE0FC00#32
  | .cmvgtzVs _ _ _ => 0xFFE0FC00#32
  | .fxaddVv _ _ _ _ => 0xFFE00400#32
  | .fxaddVs _ _ _ _ => 0xFFE00400#32
  | .fxaddSv _ _ _ _ => 0xFFE00400#32
  | .fxsubVv _ _ _ _ => 0xFFE00400#32
  | .fxsubVs _ _ _ _ => 0xFFE00400#32
  | .fxsubSv _ _ _ _ => 0xFFE00400#32
  | .fxmulVv _ _ _ _ => 0xFFE00400#32
  | .fxmulVs _ _ _ _ => 0xFFE00400#32
  | .fxmulSv _ _ _ _ => 0xFFE00400#32

/-- The match value of the row of the opcode table. -/
def value : Instr → Word
  | .add _ _ _ => 0x00000020#32
  | .addu _ _ _ => 0x00000021#32
  | .sub _ _ _ => 0x00000022#32
  | .subu _ _ _ => 0x00000023#32
  | .and _ _ _ => 0x00000024#32
  | .or _ _ _ => 0x00000025#32
  | .xor _ _ _ => 0x00000026#32
  | .nor _ _ _ => 0x00000027#32
  | .slt _ _ _ => 0x0000002A#32
  | .sltu _ _ _ => 0x0000002B#32
  | .sll _ _ _ => 0x00000000#32
  | .srl _ _ _ => 0x00000002#32
  | .sra _ _ _ => 0x00000003#32
  | .sllv _ _ _ => 0x00000004#32
  | .srlv _ _ _ => 0x00000006#32
  | .srav _ _ _ => 0x00000007#32
  | .addi _ _ _ => 0x20000000#32
  | .addiu _ _ _ => 0x24000000#32
  | .slti _ _ _ => 0x28000000#32
  | .sltiu _ _ _ => 0x2C000000#32
  | .andi _ _ _ => 0x30000000#32
  | .ori _ _ _ => 0x34000000#32
  | .xori _ _ _ => 0x38000000#32
  | .lui _ _ => 0x3C000000#32
  | .mult _ _ => 0x00000018#32
  | .multu _ _ => 0x00000019#32
  | .div _ _ => 0x0000001A#32
  | .divu _ _ => 0x0000001B#32
  | .mfhi _ => 0x00000010#32
  | .mthi _ => 0x00000011#32
  | .mflo _ => 0x00000012#32
  | .mtlo _ => 0x00000013#32
  | .lb _ _ _ => 0x80000000#32
  | .lbu _ _ _ => 0x90000000#32
  | .lh _ _ _ => 0x84000000#32
  | .lhu _ _ _ => 0x94000000#32
  | .lw _ _ _ => 0x8C000000#32
  | .lwl _ _ _ => 0x88000000#32
  | .lwr _ _ _ => 0x98000000#32
  | .sb _ _ _ => 0xA0000000#32
  | .sh _ _ _ => 0xA4000000#32
  | .sw _ _ _ => 0xAC000000#32
  | .swl _ _ _ => 0xA8000000#32
  | .swr _ _ _ => 0xB8000000#32
  | .ll _ _ _ => 0xC0000000#32
  | .sc _ _ _ => 0xE0000000#32
  | .sync => 0x0000000F#32
  | .j _ => 0x08000000#32
  | .jal _ => 0x0C000000#32
  | .jr _ => 0x00000008#32
  | .jalr _ _ => 0x00000009#32
  | .beq _ _ _ => 0x10000000#32
  | .bne _ _ _ => 0x14000000#32
  | .blez _ _ => 0x18000000#32
  | .bgtz _ _ => 0x1C000000#32
  | .bltz _ _ => 0x04000000#32
  | .bgez _ _ => 0x04010000#32
  | .bltzal _ _ => 0x04100000#32
  | .bgezal _ _ => 0x04110000#32
  | .beql _ _ _ => 0x50000000#32
  | .bnel _ _ _ => 0x54000000#32
  | .blezl _ _ => 0x58000000#32
  | .bgtzl _ _ => 0x5C000000#32
  | .bltzl _ _ => 0x04020000#32
  | .bgezl _ _ => 0x04030000#32
  | .bltzall _ _ => 0x04120000#32
  | .bgezall _ _ => 0x04130000#32
  | .tge _ _ _ => 0x00000030#32
  | .tgeu _ _ _ => 0x00000031#32
  | .tlt _ _ _ => 0x00000032#32
  | .tltu _ _ _ => 0x00000033#32
  | .teq _ _ _ => 0x00000034#32
  | .tne _ _ _ => 0x00000036#32
  | .tgei _ _ => 0x04080000#32
  | .tgeiu _ _ => 0x04090000#32
  | .tlti _ _ => 0x040A0000#32
  | .tltiu _ _ => 0x040B0000#32
  | .teqi _ _ => 0x040C0000#32
  | .tnei _ _ => 0x040E0000#32
  | .syscall _ => 0x0000000C#32
  | .brk _ => 0x0000000D#32
  | .cop0 _ => 0x40000000#32
  | .cop1 _ => 0x44000000#32
  | .cop3 _ => 0x4C000000#32
  | .lwc1 _ _ _ => 0xC4000000#32
  | .swc1 _ _ _ => 0xE4000000#32
  | .ldc1 _ _ _ => 0xD4000000#32
  | .sdc1 _ _ _ => 0xF4000000#32
  | .lwc2 _ _ _ => 0xC8000000#32
  | .swc2 _ _ _ => 0xE8000000#32
  | .ldc2 _ _ _ => 0xD8000000#32
  | .sdc2 _ _ _ => 0xF8000000#32
  | .lwc3 _ _ _ => 0xCC000000#32
  | .swc3 _ _ _ => 0xEC000000#32
  | .mfc2 _ => 0x48000000#32
  | .mtc2 _ => 0x48800000#32
  | .bc2f _ => 0x49000000#32
  | .bc2t _ => 0x49010000#32
  | .bc2fl _ => 0x49020000#32
  | .bc2tl _ => 0x49030000#32
  | .cfvu _ _ => 0x48400000#32
  | .ctvu _ _ => 0x48C00000#32
  | .vextV _ _ _ => 0x4A000160#32
  | .vinsS _ _ _ => 0x4A200260#32
  | .vextS _ _ _ => 0x4A200360#32
  | .lbaiV _ _ _ => 0x4A600000#32
  | .lhaiV _ _ _ => 0x4A600020#32
  | .lwaiV _ _ _ => 0x4A600060#32
  | .lbuaiV _ _ _ => 0x4A600080#32
  | .lhuaiV _ _ _ => 0x4A6000A0#32
  | .lbxV _ _ _ => 0x4A400200#32
  | .lhxV _ _ _ => 0x4A400220#32
  | .lwxV _ _ _ => 0x4A400260#32
  | .lbuxV _ _ _ => 0x4A400280#32
  | .lhuxV _ _ _ => 0x4A4002A0#32
  | .lbstV _ _ _ => 0x4A600200#32
  | .lhstV _ _ _ => 0x4A600220#32
  | .lwstV _ _ _ => 0x4A600260#32
  | .lbustV _ _ _ => 0x4A600280#32
  | .lhustV _ _ _ => 0x4A6002A0#32
  | .sbaiV _ _ _ => 0x4A600100#32
  | .shaiV _ _ _ => 0x4A600120#32
  | .swaiV _ _ _ => 0x4A600160#32
  | .sbxV _ _ _ => 0x4A400300#32
  | .shxV _ _ _ => 0x4A400320#32
  | .swxV _ _ _ => 0x4A400360#32
  | .sbstV _ _ _ => 0x4A600300#32
  | .shstV _ _ _ => 0x4A600320#32
  | .swstV _ _ _ => 0x4A600360#32
  | .andVv _ _ _ => 0x4A80A000#32
  | .andVs _ _ _ => 0x4AA0A000#32
  | .orVv _ _ _ => 0x4A80A800#32
  | .orVs _ _ _ => 0x4AA0A800#32
  | .xorVv _ _ _ => 0x4A80B000#32
  | .xorVs _ _ _ => 0x4AA0B000#32
  | .norVv _ _ _ => 0x4A80B800#32
  | .norVs _ _ _ => 0x4AA0B800#32
  | .addVv _ _ _ => 0x4A808000#32
  | .addVs _ _ _ => 0x4AA08000#32
  | .adduVv _ _ _ => 0x4A808800#32
  | .adduVs _ _ _ => 0x4AA08800#32
  | .subVv _ _ _ => 0x4A800000#32
  | .subVs _ _ _ => 0x4AA00000#32
  | .subSv _ _ _ => 0x4AA00400#32
  | .subuVv _ _ _ => 0x4A800800#32
  | .subuVs _ _ _ => 0x4AA00800#32
  | .subuSv _ _ _ => 0x4AA00C00#32
  | .sllvVv _ _ _ => 0x4A804000#32
  | .sllvVs _ _ _ => 0x4AA04000#32
  | .sllvSv _ _ _ => 0x4AA04400#32
  | .sravVv _ _ _ => 0x4A805800#32
  | .sravVs _ _ _ => 0x4AA05800#32
  | .sravSv _ _ _ => 0x4AA05C00#32
  | .srlvVv _ _ _ => 0x4A804800#32
  | .srlvVs _ _ _ => 0x4AA04800#32
  | .srlvSv _ _ _ => 0x4AA04C00#32
  | .sltVv _ _ _ => 0x4A806000#32
  | .sltVs _ _ _ => 0x4AA06000#32
  | .sltSv _ _ _ => 0x4AA06400#32
  | .sltuVv _ _ _ => 0x4A806800#32
  | .sltuVs _ _ _ => 0x4AA06800#32
  | .sltuSv _ _ _ => 0x4AA06C00#32
  | .seqVv _ _ _ => 0x4A807000#32
  | .seqVs _ _ _ => 0x4AA07000#32
  | .fltVv _ _ => 0x4A802000#32
  | .fltVs _ _ => 0x4AA02000#32
  | .fltSv _ _ => 0x4AA02400#32
  | .fltuVv _ _ => 0x4A802800#32
  | .fltuVs _ _ => 0x4AA02800#32
  | .fltuSv _ _ => 0x4AA02C00#32
  | .feqVv _ _ => 0x4A803000#32
  | .feqVs _ _ => 0x4AA03000#32
  | .cmvnezVv _ _ _ => 0x4A80C800#32
  | .cmvgezVv _ _ _ => 0x4A80D000#32
  | .cmvlezVv _ _ _ => 0x4A80D800#32
  | .cmveqzVv _ _ _ => 0x4A80E800#32
  | .cmvltzVv _ _ _ => 0x4A80F000#32
  | .cmvgtzVv _ _ _ => 0x4A80F800#32
  | .cmvnezVs _ _ _ => 0x4AA0C800#32
  | .cmvgezVs _ _ _ => 0x4AA0D000#32
  | .cmvlezVs _ _ _ => 0x4AA0D800#32
  | .cmveqzVs _ _ _ => 0x4AA0E800#32
  | .cmvltzVs _ _ _ => 0x4AA0F000#32
  | .cmvgtzVs _ _ _ => 0x4AA0F800#32
  | .fxaddVv _ _ _ _ => 0x4B000000#32
  | .fxaddVs _ _ _ _ => 0x4B200000#32
  | .fxaddSv _ _ _ _ => 0x4B200400#32
  | .fxsubVv _ _ _ _ => 0x4B400000#32
  | .fxsubVs _ _ _ _ => 0x4B600000#32
  | .fxsubSv _ _ _ _ => 0x4B600400#32
  | .fxmulVv _ _ _ _ => 0x4B800000#32
  | .fxmulVs _ _ _ _ => 0x4BA00000#32
  | .fxmulSv _ _ _ _ => 0x4BA00400#32

/-- A word `I` is this instruction exactly when `I & mask = match` (R121). -/
def Statement (i : Instr) : Prop := encode i &&& mask i = value i

section

theorem and_mkR (a0 : BitVec 6) (a1 : BitVec 5) (a2 : BitVec 5) (a3 : BitVec 5) (a4 : BitVec 5) (a5 : BitVec 6)
    (b0 : BitVec 6) (b1 : BitVec 5) (b2 : BitVec 5) (b3 : BitVec 5) (b4 : BitVec 5) (b5 : BitVec 6) :
    mkR a0 a1 a2 a3 a4 a5 &&& (b0 ++ b1 ++ b2 ++ b3 ++ b4 ++ b5) =
      (a0 &&& b0) ++ (a1 &&& b1) ++ (a2 &&& b2) ++ (a3 &&& b3) ++ (a4 &&& b4) ++ (a5 &&& b5) := by
  unfold mkR; ext k hk; simp only [BitVec.getElem_and, BitVec.getElem_append]; grind

theorem and_mkI (a0 : BitVec 6) (a1 : BitVec 5) (a2 : BitVec 5) (a3 : BitVec 16)
    (b0 : BitVec 6) (b1 : BitVec 5) (b2 : BitVec 5) (b3 : BitVec 16) :
    mkI a0 a1 a2 a3 &&& (b0 ++ b1 ++ b2 ++ b3) =
      (a0 &&& b0) ++ (a1 &&& b1) ++ (a2 &&& b2) ++ (a3 &&& b3) := by
  unfold mkI; ext k hk; simp only [BitVec.getElem_and, BitVec.getElem_append]; grind

theorem and_mkJ (a0 : BitVec 6) (a1 : BitVec 26)
    (b0 : BitVec 6) (b1 : BitVec 26) :
    mkJ a0 a1 &&& (b0 ++ b1) =
      (a0 &&& b0) ++ (a1 &&& b1) := by
  unfold mkJ; ext k hk; simp only [BitVec.getElem_and, BitVec.getElem_append]; grind

theorem and_mkT (a1 : BitVec 5) (a2 : BitVec 5) (a3 : BitVec 10) (a4 : BitVec 6)
    (b0 : BitVec 6) (b1 : BitVec 5) (b2 : BitVec 5) (b3 : BitVec 10) (b4 : BitVec 6) :
    mkT a1 a2 a3 a4 &&& (b0 ++ b1 ++ b2 ++ b3 ++ b4) =
      (0#6 &&& b0) ++ (a1 &&& b1) ++ (a2 &&& b2) ++ (a3 &&& b3) ++ (a4 &&& b4) := by
  unfold mkT; ext k hk; simp only [BitVec.getElem_and, BitVec.getElem_append]; grind

theorem and_mkS (a1 : BitVec 20) (a2 : BitVec 6)
    (b0 : BitVec 6) (b1 : BitVec 20) (b2 : BitVec 6) :
    mkS a1 a2 &&& (b0 ++ b1 ++ b2) =
      (0#6 &&& b0) ++ (a1 &&& b1) ++ (a2 &&& b2) := by
  unfold mkS; ext k hk; simp only [BitVec.getElem_and, BitVec.getElem_append]; grind

theorem and_mkL (a0 : BitVec 6) (a1 : BitVec 5) (a2 : BitVec 21)
    (b0 : BitVec 6) (b1 : BitVec 5) (b2 : BitVec 21) :
    mkL a0 a1 a2 &&& (b0 ++ b1 ++ b2) =
      (a0 &&& b0) ++ (a1 &&& b1) ++ (a2 &&& b2) := by
  unfold mkL; ext k hk; simp only [BitVec.getElem_and, BitVec.getElem_append]; grind

theorem and_mkV (a1 : BitVec 5) (a2 : BitVec 5) (a3 : BitVec 5) (a4 : BitVec 1) (a5 : BitVec 5) (a6 : BitVec 5)
    (b0 : BitVec 6) (b1 : BitVec 5) (b2 : BitVec 5) (b3 : BitVec 5) (b4 : BitVec 1) (b5 : BitVec 5) (b6 : BitVec 5) :
    mkV a1 a2 a3 a4 a5 a6 &&& (b0 ++ b1 ++ b2 ++ b3 ++ b4 ++ b5 ++ b6) =
      (0b010010#6 &&& b0) ++ (a1 &&& b1) ++ (a2 &&& b2) ++ (a3 &&& b3) ++ (a4 &&& b4) ++ (a5 &&& b5) ++ (a6 &&& b6) := by
  unfold mkV; ext k hk; simp only [BitVec.getElem_and, BitVec.getElem_append]; grind

end

theorem add (rd : BitVec 5) (rs : BitVec 5) (rt : BitVec 5) : Statement (.add rd rs rt) := by
  show mkR 0#6 rs rt rd 0#5 32#6 &&& 0xFC0007FF#32 = 0x00000020#32
  rw [show 0xFC0007FF#32 = 63#6 ++ 0#5 ++ 0#5 ++ 0#5 ++ 31#5 ++ 63#6 from rfl, and_mkR]
  simp

theorem addu (rd : BitVec 5) (rs : BitVec 5) (rt : BitVec 5) : Statement (.addu rd rs rt) := by
  show mkR 0#6 rs rt rd 0#5 33#6 &&& 0xFC0007FF#32 = 0x00000021#32
  rw [show 0xFC0007FF#32 = 63#6 ++ 0#5 ++ 0#5 ++ 0#5 ++ 31#5 ++ 63#6 from rfl, and_mkR]
  simp

theorem sub (rd : BitVec 5) (rs : BitVec 5) (rt : BitVec 5) : Statement (.sub rd rs rt) := by
  show mkR 0#6 rs rt rd 0#5 34#6 &&& 0xFC0007FF#32 = 0x00000022#32
  rw [show 0xFC0007FF#32 = 63#6 ++ 0#5 ++ 0#5 ++ 0#5 ++ 31#5 ++ 63#6 from rfl, and_mkR]
  simp

theorem subu (rd : BitVec 5) (rs : BitVec 5) (rt : BitVec 5) : Statement (.subu rd rs rt) := by
  show mkR 0#6 rs rt rd 0#5 35#6 &&& 0xFC0007FF#32 = 0x00000023#32
  rw [show 0xFC0007FF#32 = 63#6 ++ 0#5 ++ 0#5 ++ 0#5 ++ 31#5 ++ 63#6 from rfl, and_mkR]
  simp

theorem and (rd : BitVec 5) (rs : BitVec 5) (rt : BitVec 5) : Statement (.and rd rs rt) := by
  show mkR 0#6 rs rt rd 0#5 36#6 &&& 0xFC0007FF#32 = 0x00000024#32
  rw [show 0xFC0007FF#32 = 63#6 ++ 0#5 ++ 0#5 ++ 0#5 ++ 31#5 ++ 63#6 from rfl, and_mkR]
  simp

theorem or (rd : BitVec 5) (rs : BitVec 5) (rt : BitVec 5) : Statement (.or rd rs rt) := by
  show mkR 0#6 rs rt rd 0#5 37#6 &&& 0xFC0007FF#32 = 0x00000025#32
  rw [show 0xFC0007FF#32 = 63#6 ++ 0#5 ++ 0#5 ++ 0#5 ++ 31#5 ++ 63#6 from rfl, and_mkR]
  simp

theorem xor (rd : BitVec 5) (rs : BitVec 5) (rt : BitVec 5) : Statement (.xor rd rs rt) := by
  show mkR 0#6 rs rt rd 0#5 38#6 &&& 0xFC0007FF#32 = 0x00000026#32
  rw [show 0xFC0007FF#32 = 63#6 ++ 0#5 ++ 0#5 ++ 0#5 ++ 31#5 ++ 63#6 from rfl, and_mkR]
  simp

theorem nor (rd : BitVec 5) (rs : BitVec 5) (rt : BitVec 5) : Statement (.nor rd rs rt) := by
  show mkR 0#6 rs rt rd 0#5 39#6 &&& 0xFC0007FF#32 = 0x00000027#32
  rw [show 0xFC0007FF#32 = 63#6 ++ 0#5 ++ 0#5 ++ 0#5 ++ 31#5 ++ 63#6 from rfl, and_mkR]
  simp

theorem slt (rd : BitVec 5) (rs : BitVec 5) (rt : BitVec 5) : Statement (.slt rd rs rt) := by
  show mkR 0#6 rs rt rd 0#5 42#6 &&& 0xFC0007FF#32 = 0x0000002A#32
  rw [show 0xFC0007FF#32 = 63#6 ++ 0#5 ++ 0#5 ++ 0#5 ++ 31#5 ++ 63#6 from rfl, and_mkR]
  simp

theorem sltu (rd : BitVec 5) (rs : BitVec 5) (rt : BitVec 5) : Statement (.sltu rd rs rt) := by
  show mkR 0#6 rs rt rd 0#5 43#6 &&& 0xFC0007FF#32 = 0x0000002B#32
  rw [show 0xFC0007FF#32 = 63#6 ++ 0#5 ++ 0#5 ++ 0#5 ++ 31#5 ++ 63#6 from rfl, and_mkR]
  simp

theorem sll (rd : BitVec 5) (rt : BitVec 5) (sa : BitVec 5) : Statement (.sll rd rt sa) := by
  show mkR 0#6 0#5 rt rd sa 0#6 &&& 0xFFE0003F#32 = 0x00000000#32
  rw [show 0xFFE0003F#32 = 63#6 ++ 31#5 ++ 0#5 ++ 0#5 ++ 0#5 ++ 63#6 from rfl, and_mkR]
  simp

theorem srl (rd : BitVec 5) (rt : BitVec 5) (sa : BitVec 5) : Statement (.srl rd rt sa) := by
  show mkR 0#6 0#5 rt rd sa 2#6 &&& 0xFFE0003F#32 = 0x00000002#32
  rw [show 0xFFE0003F#32 = 63#6 ++ 31#5 ++ 0#5 ++ 0#5 ++ 0#5 ++ 63#6 from rfl, and_mkR]
  simp

theorem sra (rd : BitVec 5) (rt : BitVec 5) (sa : BitVec 5) : Statement (.sra rd rt sa) := by
  show mkR 0#6 0#5 rt rd sa 3#6 &&& 0xFFE0003F#32 = 0x00000003#32
  rw [show 0xFFE0003F#32 = 63#6 ++ 31#5 ++ 0#5 ++ 0#5 ++ 0#5 ++ 63#6 from rfl, and_mkR]
  simp

theorem sllv (rd : BitVec 5) (rt : BitVec 5) (rs : BitVec 5) : Statement (.sllv rd rt rs) := by
  show mkR 0#6 rs rt rd 0#5 4#6 &&& 0xFC0007FF#32 = 0x00000004#32
  rw [show 0xFC0007FF#32 = 63#6 ++ 0#5 ++ 0#5 ++ 0#5 ++ 31#5 ++ 63#6 from rfl, and_mkR]
  simp

theorem srlv (rd : BitVec 5) (rt : BitVec 5) (rs : BitVec 5) : Statement (.srlv rd rt rs) := by
  show mkR 0#6 rs rt rd 0#5 6#6 &&& 0xFC0007FF#32 = 0x00000006#32
  rw [show 0xFC0007FF#32 = 63#6 ++ 0#5 ++ 0#5 ++ 0#5 ++ 31#5 ++ 63#6 from rfl, and_mkR]
  simp

theorem srav (rd : BitVec 5) (rt : BitVec 5) (rs : BitVec 5) : Statement (.srav rd rt rs) := by
  show mkR 0#6 rs rt rd 0#5 7#6 &&& 0xFC0007FF#32 = 0x00000007#32
  rw [show 0xFC0007FF#32 = 63#6 ++ 0#5 ++ 0#5 ++ 0#5 ++ 31#5 ++ 63#6 from rfl, and_mkR]
  simp

theorem addi (rt : BitVec 5) (rs : BitVec 5) (imm : BitVec 16) : Statement (.addi rt rs imm) := by
  show mkI 8#6 rs rt imm &&& 0xFC000000#32 = 0x20000000#32
  rw [show 0xFC000000#32 = 63#6 ++ 0#5 ++ 0#5 ++ 0#16 from rfl, and_mkI]
  simp

theorem addiu (rt : BitVec 5) (rs : BitVec 5) (imm : BitVec 16) : Statement (.addiu rt rs imm) := by
  show mkI 9#6 rs rt imm &&& 0xFC000000#32 = 0x24000000#32
  rw [show 0xFC000000#32 = 63#6 ++ 0#5 ++ 0#5 ++ 0#16 from rfl, and_mkI]
  simp

theorem slti (rt : BitVec 5) (rs : BitVec 5) (imm : BitVec 16) : Statement (.slti rt rs imm) := by
  show mkI 10#6 rs rt imm &&& 0xFC000000#32 = 0x28000000#32
  rw [show 0xFC000000#32 = 63#6 ++ 0#5 ++ 0#5 ++ 0#16 from rfl, and_mkI]
  simp

theorem sltiu (rt : BitVec 5) (rs : BitVec 5) (imm : BitVec 16) : Statement (.sltiu rt rs imm) := by
  show mkI 11#6 rs rt imm &&& 0xFC000000#32 = 0x2C000000#32
  rw [show 0xFC000000#32 = 63#6 ++ 0#5 ++ 0#5 ++ 0#16 from rfl, and_mkI]
  simp

theorem andi (rt : BitVec 5) (rs : BitVec 5) (imm : BitVec 16) : Statement (.andi rt rs imm) := by
  show mkI 12#6 rs rt imm &&& 0xFC000000#32 = 0x30000000#32
  rw [show 0xFC000000#32 = 63#6 ++ 0#5 ++ 0#5 ++ 0#16 from rfl, and_mkI]
  simp

theorem ori (rt : BitVec 5) (rs : BitVec 5) (imm : BitVec 16) : Statement (.ori rt rs imm) := by
  show mkI 13#6 rs rt imm &&& 0xFC000000#32 = 0x34000000#32
  rw [show 0xFC000000#32 = 63#6 ++ 0#5 ++ 0#5 ++ 0#16 from rfl, and_mkI]
  simp

theorem xori (rt : BitVec 5) (rs : BitVec 5) (imm : BitVec 16) : Statement (.xori rt rs imm) := by
  show mkI 14#6 rs rt imm &&& 0xFC000000#32 = 0x38000000#32
  rw [show 0xFC000000#32 = 63#6 ++ 0#5 ++ 0#5 ++ 0#16 from rfl, and_mkI]
  simp

theorem lui (rt : BitVec 5) (imm : BitVec 16) : Statement (.lui rt imm) := by
  show mkI 15#6 0#5 rt imm &&& 0xFFE00000#32 = 0x3C000000#32
  rw [show 0xFFE00000#32 = 63#6 ++ 31#5 ++ 0#5 ++ 0#16 from rfl, and_mkI]
  simp

theorem mult (rs : BitVec 5) (rt : BitVec 5) : Statement (.mult rs rt) := by
  show mkR 0#6 rs rt 0#5 0#5 24#6 &&& 0xFC00FFFF#32 = 0x00000018#32
  rw [show 0xFC00FFFF#32 = 63#6 ++ 0#5 ++ 0#5 ++ 31#5 ++ 31#5 ++ 63#6 from rfl, and_mkR]
  simp

theorem multu (rs : BitVec 5) (rt : BitVec 5) : Statement (.multu rs rt) := by
  show mkR 0#6 rs rt 0#5 0#5 25#6 &&& 0xFC00FFFF#32 = 0x00000019#32
  rw [show 0xFC00FFFF#32 = 63#6 ++ 0#5 ++ 0#5 ++ 31#5 ++ 31#5 ++ 63#6 from rfl, and_mkR]
  simp

theorem div (rs : BitVec 5) (rt : BitVec 5) : Statement (.div rs rt) := by
  show mkR 0#6 rs rt 0#5 0#5 26#6 &&& 0xFC00FFFF#32 = 0x0000001A#32
  rw [show 0xFC00FFFF#32 = 63#6 ++ 0#5 ++ 0#5 ++ 31#5 ++ 31#5 ++ 63#6 from rfl, and_mkR]
  simp

theorem divu (rs : BitVec 5) (rt : BitVec 5) : Statement (.divu rs rt) := by
  show mkR 0#6 rs rt 0#5 0#5 27#6 &&& 0xFC00FFFF#32 = 0x0000001B#32
  rw [show 0xFC00FFFF#32 = 63#6 ++ 0#5 ++ 0#5 ++ 31#5 ++ 31#5 ++ 63#6 from rfl, and_mkR]
  simp

theorem mfhi (rd : BitVec 5) : Statement (.mfhi rd) := by
  show mkR 0#6 0#5 0#5 rd 0#5 16#6 &&& 0xFFFF07FF#32 = 0x00000010#32
  rw [show 0xFFFF07FF#32 = 63#6 ++ 31#5 ++ 31#5 ++ 0#5 ++ 31#5 ++ 63#6 from rfl, and_mkR]
  simp

theorem mthi (rs : BitVec 5) : Statement (.mthi rs) := by
  show mkR 0#6 rs 0#5 0#5 0#5 17#6 &&& 0xFC1FFFFF#32 = 0x00000011#32
  rw [show 0xFC1FFFFF#32 = 63#6 ++ 0#5 ++ 31#5 ++ 31#5 ++ 31#5 ++ 63#6 from rfl, and_mkR]
  simp

theorem mflo (rd : BitVec 5) : Statement (.mflo rd) := by
  show mkR 0#6 0#5 0#5 rd 0#5 18#6 &&& 0xFFFF07FF#32 = 0x00000012#32
  rw [show 0xFFFF07FF#32 = 63#6 ++ 31#5 ++ 31#5 ++ 0#5 ++ 31#5 ++ 63#6 from rfl, and_mkR]
  simp

theorem mtlo (rs : BitVec 5) : Statement (.mtlo rs) := by
  show mkR 0#6 rs 0#5 0#5 0#5 19#6 &&& 0xFC1FFFFF#32 = 0x00000013#32
  rw [show 0xFC1FFFFF#32 = 63#6 ++ 0#5 ++ 31#5 ++ 31#5 ++ 31#5 ++ 63#6 from rfl, and_mkR]
  simp

theorem lb (rt : BitVec 5) (offset : BitVec 16) (base : BitVec 5) : Statement (.lb rt offset base) := by
  show mkI 32#6 base rt offset &&& 0xFC000000#32 = 0x80000000#32
  rw [show 0xFC000000#32 = 63#6 ++ 0#5 ++ 0#5 ++ 0#16 from rfl, and_mkI]
  simp

theorem lbu (rt : BitVec 5) (offset : BitVec 16) (base : BitVec 5) : Statement (.lbu rt offset base) := by
  show mkI 36#6 base rt offset &&& 0xFC000000#32 = 0x90000000#32
  rw [show 0xFC000000#32 = 63#6 ++ 0#5 ++ 0#5 ++ 0#16 from rfl, and_mkI]
  simp

theorem lh (rt : BitVec 5) (offset : BitVec 16) (base : BitVec 5) : Statement (.lh rt offset base) := by
  show mkI 33#6 base rt offset &&& 0xFC000000#32 = 0x84000000#32
  rw [show 0xFC000000#32 = 63#6 ++ 0#5 ++ 0#5 ++ 0#16 from rfl, and_mkI]
  simp

theorem lhu (rt : BitVec 5) (offset : BitVec 16) (base : BitVec 5) : Statement (.lhu rt offset base) := by
  show mkI 37#6 base rt offset &&& 0xFC000000#32 = 0x94000000#32
  rw [show 0xFC000000#32 = 63#6 ++ 0#5 ++ 0#5 ++ 0#16 from rfl, and_mkI]
  simp

theorem lw (rt : BitVec 5) (offset : BitVec 16) (base : BitVec 5) : Statement (.lw rt offset base) := by
  show mkI 35#6 base rt offset &&& 0xFC000000#32 = 0x8C000000#32
  rw [show 0xFC000000#32 = 63#6 ++ 0#5 ++ 0#5 ++ 0#16 from rfl, and_mkI]
  simp

theorem lwl (rt : BitVec 5) (offset : BitVec 16) (base : BitVec 5) : Statement (.lwl rt offset base) := by
  show mkI 34#6 base rt offset &&& 0xFC000000#32 = 0x88000000#32
  rw [show 0xFC000000#32 = 63#6 ++ 0#5 ++ 0#5 ++ 0#16 from rfl, and_mkI]
  simp

theorem lwr (rt : BitVec 5) (offset : BitVec 16) (base : BitVec 5) : Statement (.lwr rt offset base) := by
  show mkI 38#6 base rt offset &&& 0xFC000000#32 = 0x98000000#32
  rw [show 0xFC000000#32 = 63#6 ++ 0#5 ++ 0#5 ++ 0#16 from rfl, and_mkI]
  simp

theorem sb (rt : BitVec 5) (offset : BitVec 16) (base : BitVec 5) : Statement (.sb rt offset base) := by
  show mkI 40#6 base rt offset &&& 0xFC000000#32 = 0xA0000000#32
  rw [show 0xFC000000#32 = 63#6 ++ 0#5 ++ 0#5 ++ 0#16 from rfl, and_mkI]
  simp

theorem sh (rt : BitVec 5) (offset : BitVec 16) (base : BitVec 5) : Statement (.sh rt offset base) := by
  show mkI 41#6 base rt offset &&& 0xFC000000#32 = 0xA4000000#32
  rw [show 0xFC000000#32 = 63#6 ++ 0#5 ++ 0#5 ++ 0#16 from rfl, and_mkI]
  simp

theorem sw (rt : BitVec 5) (offset : BitVec 16) (base : BitVec 5) : Statement (.sw rt offset base) := by
  show mkI 43#6 base rt offset &&& 0xFC000000#32 = 0xAC000000#32
  rw [show 0xFC000000#32 = 63#6 ++ 0#5 ++ 0#5 ++ 0#16 from rfl, and_mkI]
  simp

theorem swl (rt : BitVec 5) (offset : BitVec 16) (base : BitVec 5) : Statement (.swl rt offset base) := by
  show mkI 42#6 base rt offset &&& 0xFC000000#32 = 0xA8000000#32
  rw [show 0xFC000000#32 = 63#6 ++ 0#5 ++ 0#5 ++ 0#16 from rfl, and_mkI]
  simp

theorem swr (rt : BitVec 5) (offset : BitVec 16) (base : BitVec 5) : Statement (.swr rt offset base) := by
  show mkI 46#6 base rt offset &&& 0xFC000000#32 = 0xB8000000#32
  rw [show 0xFC000000#32 = 63#6 ++ 0#5 ++ 0#5 ++ 0#16 from rfl, and_mkI]
  simp

theorem ll (rt : BitVec 5) (offset : BitVec 16) (base : BitVec 5) : Statement (.ll rt offset base) := by
  show mkI 48#6 base rt offset &&& 0xFC000000#32 = 0xC0000000#32
  rw [show 0xFC000000#32 = 63#6 ++ 0#5 ++ 0#5 ++ 0#16 from rfl, and_mkI]
  simp

theorem sc (rt : BitVec 5) (offset : BitVec 16) (base : BitVec 5) : Statement (.sc rt offset base) := by
  show mkI 56#6 base rt offset &&& 0xFC000000#32 = 0xE0000000#32
  rw [show 0xFC000000#32 = 63#6 ++ 0#5 ++ 0#5 ++ 0#16 from rfl, and_mkI]
  simp

theorem sync : Statement .sync := by
  show mkR 0#6 0#5 0#5 0#5 0#5 15#6 &&& 0xFFFFFFFF#32 = 0x0000000F#32
  rw [show 0xFFFFFFFF#32 = 63#6 ++ 31#5 ++ 31#5 ++ 31#5 ++ 31#5 ++ 63#6 from rfl, and_mkR]
  simp

theorem j (target : BitVec 26) : Statement (.j target) := by
  show mkJ 2#6 target &&& 0xFC000000#32 = 0x08000000#32
  rw [show 0xFC000000#32 = 63#6 ++ 0#26 from rfl, and_mkJ]
  simp

theorem jal (target : BitVec 26) : Statement (.jal target) := by
  show mkJ 3#6 target &&& 0xFC000000#32 = 0x0C000000#32
  rw [show 0xFC000000#32 = 63#6 ++ 0#26 from rfl, and_mkJ]
  simp

theorem jr (rs : BitVec 5) : Statement (.jr rs) := by
  show mkR 0#6 rs 0#5 0#5 0#5 8#6 &&& 0xFC1FFFFF#32 = 0x00000008#32
  rw [show 0xFC1FFFFF#32 = 63#6 ++ 0#5 ++ 31#5 ++ 31#5 ++ 31#5 ++ 63#6 from rfl, and_mkR]
  simp

theorem jalr (rd : BitVec 5) (rs : BitVec 5) : Statement (.jalr rd rs) := by
  show mkR 0#6 rs 0#5 rd 0#5 9#6 &&& 0xFC1F07FF#32 = 0x00000009#32
  rw [show 0xFC1F07FF#32 = 63#6 ++ 0#5 ++ 31#5 ++ 0#5 ++ 31#5 ++ 63#6 from rfl, and_mkR]
  simp

theorem beq (rs : BitVec 5) (rt : BitVec 5) (offset : BitVec 16) : Statement (.beq rs rt offset) := by
  show mkI 4#6 rs rt offset &&& 0xFC000000#32 = 0x10000000#32
  rw [show 0xFC000000#32 = 63#6 ++ 0#5 ++ 0#5 ++ 0#16 from rfl, and_mkI]
  simp

theorem bne (rs : BitVec 5) (rt : BitVec 5) (offset : BitVec 16) : Statement (.bne rs rt offset) := by
  show mkI 5#6 rs rt offset &&& 0xFC000000#32 = 0x14000000#32
  rw [show 0xFC000000#32 = 63#6 ++ 0#5 ++ 0#5 ++ 0#16 from rfl, and_mkI]
  simp

theorem blez (rs : BitVec 5) (offset : BitVec 16) : Statement (.blez rs offset) := by
  show mkI 6#6 rs 0#5 offset &&& 0xFC1F0000#32 = 0x18000000#32
  rw [show 0xFC1F0000#32 = 63#6 ++ 0#5 ++ 31#5 ++ 0#16 from rfl, and_mkI]
  simp

theorem bgtz (rs : BitVec 5) (offset : BitVec 16) : Statement (.bgtz rs offset) := by
  show mkI 7#6 rs 0#5 offset &&& 0xFC1F0000#32 = 0x1C000000#32
  rw [show 0xFC1F0000#32 = 63#6 ++ 0#5 ++ 31#5 ++ 0#16 from rfl, and_mkI]
  simp

theorem bltz (rs : BitVec 5) (offset : BitVec 16) : Statement (.bltz rs offset) := by
  show mkI 1#6 rs 0#5 offset &&& 0xFC1F0000#32 = 0x04000000#32
  rw [show 0xFC1F0000#32 = 63#6 ++ 0#5 ++ 31#5 ++ 0#16 from rfl, and_mkI]
  simp

theorem bgez (rs : BitVec 5) (offset : BitVec 16) : Statement (.bgez rs offset) := by
  show mkI 1#6 rs 1#5 offset &&& 0xFC1F0000#32 = 0x04010000#32
  rw [show 0xFC1F0000#32 = 63#6 ++ 0#5 ++ 31#5 ++ 0#16 from rfl, and_mkI]
  simp

theorem bltzal (rs : BitVec 5) (offset : BitVec 16) : Statement (.bltzal rs offset) := by
  show mkI 1#6 rs 16#5 offset &&& 0xFC1F0000#32 = 0x04100000#32
  rw [show 0xFC1F0000#32 = 63#6 ++ 0#5 ++ 31#5 ++ 0#16 from rfl, and_mkI]
  simp

theorem bgezal (rs : BitVec 5) (offset : BitVec 16) : Statement (.bgezal rs offset) := by
  show mkI 1#6 rs 17#5 offset &&& 0xFC1F0000#32 = 0x04110000#32
  rw [show 0xFC1F0000#32 = 63#6 ++ 0#5 ++ 31#5 ++ 0#16 from rfl, and_mkI]
  simp

theorem beql (rs : BitVec 5) (rt : BitVec 5) (offset : BitVec 16) : Statement (.beql rs rt offset) := by
  show mkI 20#6 rs rt offset &&& 0xFC000000#32 = 0x50000000#32
  rw [show 0xFC000000#32 = 63#6 ++ 0#5 ++ 0#5 ++ 0#16 from rfl, and_mkI]
  simp

theorem bnel (rs : BitVec 5) (rt : BitVec 5) (offset : BitVec 16) : Statement (.bnel rs rt offset) := by
  show mkI 21#6 rs rt offset &&& 0xFC000000#32 = 0x54000000#32
  rw [show 0xFC000000#32 = 63#6 ++ 0#5 ++ 0#5 ++ 0#16 from rfl, and_mkI]
  simp

theorem blezl (rs : BitVec 5) (offset : BitVec 16) : Statement (.blezl rs offset) := by
  show mkI 22#6 rs 0#5 offset &&& 0xFC1F0000#32 = 0x58000000#32
  rw [show 0xFC1F0000#32 = 63#6 ++ 0#5 ++ 31#5 ++ 0#16 from rfl, and_mkI]
  simp

theorem bgtzl (rs : BitVec 5) (offset : BitVec 16) : Statement (.bgtzl rs offset) := by
  show mkI 23#6 rs 0#5 offset &&& 0xFC1F0000#32 = 0x5C000000#32
  rw [show 0xFC1F0000#32 = 63#6 ++ 0#5 ++ 31#5 ++ 0#16 from rfl, and_mkI]
  simp

theorem bltzl (rs : BitVec 5) (offset : BitVec 16) : Statement (.bltzl rs offset) := by
  show mkI 1#6 rs 2#5 offset &&& 0xFC1F0000#32 = 0x04020000#32
  rw [show 0xFC1F0000#32 = 63#6 ++ 0#5 ++ 31#5 ++ 0#16 from rfl, and_mkI]
  simp

theorem bgezl (rs : BitVec 5) (offset : BitVec 16) : Statement (.bgezl rs offset) := by
  show mkI 1#6 rs 3#5 offset &&& 0xFC1F0000#32 = 0x04030000#32
  rw [show 0xFC1F0000#32 = 63#6 ++ 0#5 ++ 31#5 ++ 0#16 from rfl, and_mkI]
  simp

theorem bltzall (rs : BitVec 5) (offset : BitVec 16) : Statement (.bltzall rs offset) := by
  show mkI 1#6 rs 18#5 offset &&& 0xFC1F0000#32 = 0x04120000#32
  rw [show 0xFC1F0000#32 = 63#6 ++ 0#5 ++ 31#5 ++ 0#16 from rfl, and_mkI]
  simp

theorem bgezall (rs : BitVec 5) (offset : BitVec 16) : Statement (.bgezall rs offset) := by
  show mkI 1#6 rs 19#5 offset &&& 0xFC1F0000#32 = 0x04130000#32
  rw [show 0xFC1F0000#32 = 63#6 ++ 0#5 ++ 31#5 ++ 0#16 from rfl, and_mkI]
  simp

theorem tge (rs : BitVec 5) (rt : BitVec 5) (code : BitVec 10) : Statement (.tge rs rt code) := by
  show mkT rs rt code 48#6 &&& 0xFC00003F#32 = 0x00000030#32
  rw [show 0xFC00003F#32 = 63#6 ++ 0#5 ++ 0#5 ++ 0#10 ++ 63#6 from rfl, and_mkT]
  simp

theorem tgeu (rs : BitVec 5) (rt : BitVec 5) (code : BitVec 10) : Statement (.tgeu rs rt code) := by
  show mkT rs rt code 49#6 &&& 0xFC00003F#32 = 0x00000031#32
  rw [show 0xFC00003F#32 = 63#6 ++ 0#5 ++ 0#5 ++ 0#10 ++ 63#6 from rfl, and_mkT]
  simp

theorem tlt (rs : BitVec 5) (rt : BitVec 5) (code : BitVec 10) : Statement (.tlt rs rt code) := by
  show mkT rs rt code 50#6 &&& 0xFC00003F#32 = 0x00000032#32
  rw [show 0xFC00003F#32 = 63#6 ++ 0#5 ++ 0#5 ++ 0#10 ++ 63#6 from rfl, and_mkT]
  simp

theorem tltu (rs : BitVec 5) (rt : BitVec 5) (code : BitVec 10) : Statement (.tltu rs rt code) := by
  show mkT rs rt code 51#6 &&& 0xFC00003F#32 = 0x00000033#32
  rw [show 0xFC00003F#32 = 63#6 ++ 0#5 ++ 0#5 ++ 0#10 ++ 63#6 from rfl, and_mkT]
  simp

theorem teq (rs : BitVec 5) (rt : BitVec 5) (code : BitVec 10) : Statement (.teq rs rt code) := by
  show mkT rs rt code 52#6 &&& 0xFC00003F#32 = 0x00000034#32
  rw [show 0xFC00003F#32 = 63#6 ++ 0#5 ++ 0#5 ++ 0#10 ++ 63#6 from rfl, and_mkT]
  simp

theorem tne (rs : BitVec 5) (rt : BitVec 5) (code : BitVec 10) : Statement (.tne rs rt code) := by
  show mkT rs rt code 54#6 &&& 0xFC00003F#32 = 0x00000036#32
  rw [show 0xFC00003F#32 = 63#6 ++ 0#5 ++ 0#5 ++ 0#10 ++ 63#6 from rfl, and_mkT]
  simp

theorem tgei (rs : BitVec 5) (imm : BitVec 16) : Statement (.tgei rs imm) := by
  show mkI 1#6 rs 8#5 imm &&& 0xFC1F0000#32 = 0x04080000#32
  rw [show 0xFC1F0000#32 = 63#6 ++ 0#5 ++ 31#5 ++ 0#16 from rfl, and_mkI]
  simp

theorem tgeiu (rs : BitVec 5) (imm : BitVec 16) : Statement (.tgeiu rs imm) := by
  show mkI 1#6 rs 9#5 imm &&& 0xFC1F0000#32 = 0x04090000#32
  rw [show 0xFC1F0000#32 = 63#6 ++ 0#5 ++ 31#5 ++ 0#16 from rfl, and_mkI]
  simp

theorem tlti (rs : BitVec 5) (imm : BitVec 16) : Statement (.tlti rs imm) := by
  show mkI 1#6 rs 10#5 imm &&& 0xFC1F0000#32 = 0x040A0000#32
  rw [show 0xFC1F0000#32 = 63#6 ++ 0#5 ++ 31#5 ++ 0#16 from rfl, and_mkI]
  simp

theorem tltiu (rs : BitVec 5) (imm : BitVec 16) : Statement (.tltiu rs imm) := by
  show mkI 1#6 rs 11#5 imm &&& 0xFC1F0000#32 = 0x040B0000#32
  rw [show 0xFC1F0000#32 = 63#6 ++ 0#5 ++ 31#5 ++ 0#16 from rfl, and_mkI]
  simp

theorem teqi (rs : BitVec 5) (imm : BitVec 16) : Statement (.teqi rs imm) := by
  show mkI 1#6 rs 12#5 imm &&& 0xFC1F0000#32 = 0x040C0000#32
  rw [show 0xFC1F0000#32 = 63#6 ++ 0#5 ++ 31#5 ++ 0#16 from rfl, and_mkI]
  simp

theorem tnei (rs : BitVec 5) (imm : BitVec 16) : Statement (.tnei rs imm) := by
  show mkI 1#6 rs 14#5 imm &&& 0xFC1F0000#32 = 0x040E0000#32
  rw [show 0xFC1F0000#32 = 63#6 ++ 0#5 ++ 31#5 ++ 0#16 from rfl, and_mkI]
  simp

theorem syscall (code : BitVec 20) : Statement (.syscall code) := by
  show mkS code 12#6 &&& 0xFC00003F#32 = 0x0000000C#32
  rw [show 0xFC00003F#32 = 63#6 ++ 0#20 ++ 63#6 from rfl, and_mkS]
  simp

theorem brk (code : BitVec 20) : Statement (.brk code) := by
  show mkS code 13#6 &&& 0xFC00003F#32 = 0x0000000D#32
  rw [show 0xFC00003F#32 = 63#6 ++ 0#20 ++ 63#6 from rfl, and_mkS]
  simp

theorem cop0 (cofun : BitVec 26) : Statement (.cop0 cofun) := by
  show mkJ 16#6 cofun &&& 0xFC000000#32 = 0x40000000#32
  rw [show 0xFC000000#32 = 63#6 ++ 0#26 from rfl, and_mkJ]
  simp

theorem cop1 (cofun : BitVec 26) : Statement (.cop1 cofun) := by
  show mkJ 17#6 cofun &&& 0xFC000000#32 = 0x44000000#32
  rw [show 0xFC000000#32 = 63#6 ++ 0#26 from rfl, and_mkJ]
  simp

theorem cop3 (cofun : BitVec 26) : Statement (.cop3 cofun) := by
  show mkJ 19#6 cofun &&& 0xFC000000#32 = 0x4C000000#32
  rw [show 0xFC000000#32 = 63#6 ++ 0#26 from rfl, and_mkJ]
  simp

theorem lwc1 (rt : BitVec 5) (offset : BitVec 16) (base : BitVec 5) : Statement (.lwc1 rt offset base) := by
  show mkI 49#6 base rt offset &&& 0xFC000000#32 = 0xC4000000#32
  rw [show 0xFC000000#32 = 63#6 ++ 0#5 ++ 0#5 ++ 0#16 from rfl, and_mkI]
  simp

theorem swc1 (rt : BitVec 5) (offset : BitVec 16) (base : BitVec 5) : Statement (.swc1 rt offset base) := by
  show mkI 57#6 base rt offset &&& 0xFC000000#32 = 0xE4000000#32
  rw [show 0xFC000000#32 = 63#6 ++ 0#5 ++ 0#5 ++ 0#16 from rfl, and_mkI]
  simp

theorem ldc1 (rt : BitVec 5) (offset : BitVec 16) (base : BitVec 5) : Statement (.ldc1 rt offset base) := by
  show mkI 53#6 base rt offset &&& 0xFC000000#32 = 0xD4000000#32
  rw [show 0xFC000000#32 = 63#6 ++ 0#5 ++ 0#5 ++ 0#16 from rfl, and_mkI]
  simp

theorem sdc1 (rt : BitVec 5) (offset : BitVec 16) (base : BitVec 5) : Statement (.sdc1 rt offset base) := by
  show mkI 61#6 base rt offset &&& 0xFC000000#32 = 0xF4000000#32
  rw [show 0xFC000000#32 = 63#6 ++ 0#5 ++ 0#5 ++ 0#16 from rfl, and_mkI]
  simp

theorem lwc2 (rt : BitVec 5) (offset : BitVec 16) (base : BitVec 5) : Statement (.lwc2 rt offset base) := by
  show mkI 50#6 base rt offset &&& 0xFC000000#32 = 0xC8000000#32
  rw [show 0xFC000000#32 = 63#6 ++ 0#5 ++ 0#5 ++ 0#16 from rfl, and_mkI]
  simp

theorem swc2 (rt : BitVec 5) (offset : BitVec 16) (base : BitVec 5) : Statement (.swc2 rt offset base) := by
  show mkI 58#6 base rt offset &&& 0xFC000000#32 = 0xE8000000#32
  rw [show 0xFC000000#32 = 63#6 ++ 0#5 ++ 0#5 ++ 0#16 from rfl, and_mkI]
  simp

theorem ldc2 (rt : BitVec 5) (offset : BitVec 16) (base : BitVec 5) : Statement (.ldc2 rt offset base) := by
  show mkI 54#6 base rt offset &&& 0xFC000000#32 = 0xD8000000#32
  rw [show 0xFC000000#32 = 63#6 ++ 0#5 ++ 0#5 ++ 0#16 from rfl, and_mkI]
  simp

theorem sdc2 (rt : BitVec 5) (offset : BitVec 16) (base : BitVec 5) : Statement (.sdc2 rt offset base) := by
  show mkI 62#6 base rt offset &&& 0xFC000000#32 = 0xF8000000#32
  rw [show 0xFC000000#32 = 63#6 ++ 0#5 ++ 0#5 ++ 0#16 from rfl, and_mkI]
  simp

theorem lwc3 (rt : BitVec 5) (offset : BitVec 16) (base : BitVec 5) : Statement (.lwc3 rt offset base) := by
  show mkI 51#6 base rt offset &&& 0xFC000000#32 = 0xCC000000#32
  rw [show 0xFC000000#32 = 63#6 ++ 0#5 ++ 0#5 ++ 0#16 from rfl, and_mkI]
  simp

theorem swc3 (rt : BitVec 5) (offset : BitVec 16) (base : BitVec 5) : Statement (.swc3 rt offset base) := by
  show mkI 59#6 base rt offset &&& 0xFC000000#32 = 0xEC000000#32
  rw [show 0xFC000000#32 = 63#6 ++ 0#5 ++ 0#5 ++ 0#16 from rfl, and_mkI]
  simp

theorem mfc2 (low : BitVec 21) : Statement (.mfc2 low) := by
  show mkL 18#6 0#5 low &&& 0xFFE00000#32 = 0x48000000#32
  rw [show 0xFFE00000#32 = 63#6 ++ 31#5 ++ 0#21 from rfl, and_mkL]
  simp

theorem mtc2 (low : BitVec 21) : Statement (.mtc2 low) := by
  show mkL 18#6 4#5 low &&& 0xFFE00000#32 = 0x48800000#32
  rw [show 0xFFE00000#32 = 63#6 ++ 31#5 ++ 0#21 from rfl, and_mkL]
  simp

theorem bc2f (offset : BitVec 16) : Statement (.bc2f offset) := by
  show mkI 18#6 8#5 0#5 offset &&& 0xFFFF0000#32 = 0x49000000#32
  rw [show 0xFFFF0000#32 = 63#6 ++ 31#5 ++ 31#5 ++ 0#16 from rfl, and_mkI]
  simp

theorem bc2t (offset : BitVec 16) : Statement (.bc2t offset) := by
  show mkI 18#6 8#5 1#5 offset &&& 0xFFFF0000#32 = 0x49010000#32
  rw [show 0xFFFF0000#32 = 63#6 ++ 31#5 ++ 31#5 ++ 0#16 from rfl, and_mkI]
  simp

theorem bc2fl (offset : BitVec 16) : Statement (.bc2fl offset) := by
  show mkI 18#6 8#5 2#5 offset &&& 0xFFFF0000#32 = 0x49020000#32
  rw [show 0xFFFF0000#32 = 63#6 ++ 31#5 ++ 31#5 ++ 0#16 from rfl, and_mkI]
  simp

theorem bc2tl (offset : BitVec 16) : Statement (.bc2tl offset) := by
  show mkI 18#6 8#5 3#5 offset &&& 0xFFFF0000#32 = 0x49030000#32
  rw [show 0xFFFF0000#32 = 63#6 ++ 31#5 ++ 31#5 ++ 0#16 from rfl, and_mkI]
  simp

theorem cfvu (rt : BitVec 5) (cs : BitVec 5) : Statement (.cfvu rt cs) := by
  show mkR 18#6 2#5 rt cs 0#5 0#6 &&& 0xFFE007FF#32 = 0x48400000#32
  rw [show 0xFFE007FF#32 = 63#6 ++ 31#5 ++ 0#5 ++ 0#5 ++ 31#5 ++ 63#6 from rfl, and_mkR]
  simp

theorem ctvu (rt : BitVec 5) (cs : BitVec 5) : Statement (.ctvu rt cs) := by
  show mkR 18#6 6#5 rt cs 0#5 0#6 &&& 0xFFE007FF#32 = 0x48C00000#32
  rw [show 0xFFE007FF#32 = 63#6 ++ 31#5 ++ 0#5 ++ 0#5 ++ 31#5 ++ 63#6 from rfl, and_mkR]
  simp

theorem vextV (vd : BitVec 5) (vt : BitVec 5) (rd : BitVec 5) : Statement (.vextV vd vt rd) := by
  show mkV 16#5 vt rd 0#1 11#5 vd &&& 0xFFE007E0#32 = 0x4A000160#32
  rw [show 0xFFE007E0#32 = 63#6 ++ 31#5 ++ 0#5 ++ 0#5 ++ 1#1 ++ 31#5 ++ 0#5 from rfl, and_mkV]
  simp

theorem vinsS (rt : BitVec 5) (vd : BitVec 5) (rd : BitVec 5) : Statement (.vinsS rt vd rd) := by
  show mkV 17#5 rt rd 0#1 19#5 vd &&& 0xFFE007E0#32 = 0x4A200260#32
  rw [show 0xFFE007E0#32 = 63#6 ++ 31#5 ++ 0#5 ++ 0#5 ++ 1#1 ++ 31#5 ++ 0#5 from rfl, and_mkV]
  simp

theorem vextS (rt : BitVec 5) (vd : BitVec 5) (rd : BitVec 5) : Statement (.vextS rt vd rd) := by
  show mkV 17#5 rt rd 0#1 27#5 vd &&& 0xFFE007E0#32 = 0x4A200360#32
  rw [show 0xFFE007E0#32 = 63#6 ++ 31#5 ++ 0#5 ++ 0#5 ++ 1#1 ++ 31#5 ++ 0#5 from rfl, and_mkV]
  simp

theorem lbaiV (vd : BitVec 5) (rd : BitVec 5) (rt : BitVec 5) : Statement (.lbaiV vd rd rt) := by
  show mkV 19#5 rt rd 0#1 0#5 vd &&& 0xFFE007E0#32 = 0x4A600000#32
  rw [show 0xFFE007E0#32 = 63#6 ++ 31#5 ++ 0#5 ++ 0#5 ++ 1#1 ++ 31#5 ++ 0#5 from rfl, and_mkV]
  simp

theorem lhaiV (vd : BitVec 5) (rd : BitVec 5) (rt : BitVec 5) : Statement (.lhaiV vd rd rt) := by
  show mkV 19#5 rt rd 0#1 1#5 vd &&& 0xFFE007E0#32 = 0x4A600020#32
  rw [show 0xFFE007E0#32 = 63#6 ++ 31#5 ++ 0#5 ++ 0#5 ++ 1#1 ++ 31#5 ++ 0#5 from rfl, and_mkV]
  simp

theorem lwaiV (vd : BitVec 5) (rd : BitVec 5) (rt : BitVec 5) : Statement (.lwaiV vd rd rt) := by
  show mkV 19#5 rt rd 0#1 3#5 vd &&& 0xFFE007E0#32 = 0x4A600060#32
  rw [show 0xFFE007E0#32 = 63#6 ++ 31#5 ++ 0#5 ++ 0#5 ++ 1#1 ++ 31#5 ++ 0#5 from rfl, and_mkV]
  simp

theorem lbuaiV (vd : BitVec 5) (rd : BitVec 5) (rt : BitVec 5) : Statement (.lbuaiV vd rd rt) := by
  show mkV 19#5 rt rd 0#1 4#5 vd &&& 0xFFE007E0#32 = 0x4A600080#32
  rw [show 0xFFE007E0#32 = 63#6 ++ 31#5 ++ 0#5 ++ 0#5 ++ 1#1 ++ 31#5 ++ 0#5 from rfl, and_mkV]
  simp

theorem lhuaiV (vd : BitVec 5) (rd : BitVec 5) (rt : BitVec 5) : Statement (.lhuaiV vd rd rt) := by
  show mkV 19#5 rt rd 0#1 5#5 vd &&& 0xFFE007E0#32 = 0x4A6000A0#32
  rw [show 0xFFE007E0#32 = 63#6 ++ 31#5 ++ 0#5 ++ 0#5 ++ 1#1 ++ 31#5 ++ 0#5 from rfl, and_mkV]
  simp

theorem lbxV (vd : BitVec 5) (rd : BitVec 5) (vt : BitVec 5) : Statement (.lbxV vd rd vt) := by
  show mkV 18#5 vt rd 0#1 16#5 vd &&& 0xFFE007E0#32 = 0x4A400200#32
  rw [show 0xFFE007E0#32 = 63#6 ++ 31#5 ++ 0#5 ++ 0#5 ++ 1#1 ++ 31#5 ++ 0#5 from rfl, and_mkV]
  simp

theorem lhxV (vd : BitVec 5) (rd : BitVec 5) (vt : BitVec 5) : Statement (.lhxV vd rd vt) := by
  show mkV 18#5 vt rd 0#1 17#5 vd &&& 0xFFE007E0#32 = 0x4A400220#32
  rw [show 0xFFE007E0#32 = 63#6 ++ 31#5 ++ 0#5 ++ 0#5 ++ 1#1 ++ 31#5 ++ 0#5 from rfl, and_mkV]
  simp

theorem lwxV (vd : BitVec 5) (rd : BitVec 5) (vt : BitVec 5) : Statement (.lwxV vd rd vt) := by
  show mkV 18#5 vt rd 0#1 19#5 vd &&& 0xFFE007E0#32 = 0x4A400260#32
  rw [show 0xFFE007E0#32 = 63#6 ++ 31#5 ++ 0#5 ++ 0#5 ++ 1#1 ++ 31#5 ++ 0#5 from rfl, and_mkV]
  simp

theorem lbuxV (vd : BitVec 5) (rd : BitVec 5) (vt : BitVec 5) : Statement (.lbuxV vd rd vt) := by
  show mkV 18#5 vt rd 0#1 20#5 vd &&& 0xFFE007E0#32 = 0x4A400280#32
  rw [show 0xFFE007E0#32 = 63#6 ++ 31#5 ++ 0#5 ++ 0#5 ++ 1#1 ++ 31#5 ++ 0#5 from rfl, and_mkV]
  simp

theorem lhuxV (vd : BitVec 5) (rd : BitVec 5) (vt : BitVec 5) : Statement (.lhuxV vd rd vt) := by
  show mkV 18#5 vt rd 0#1 21#5 vd &&& 0xFFE007E0#32 = 0x4A4002A0#32
  rw [show 0xFFE007E0#32 = 63#6 ++ 31#5 ++ 0#5 ++ 0#5 ++ 1#1 ++ 31#5 ++ 0#5 from rfl, and_mkV]
  simp

theorem lbstV (vd : BitVec 5) (rd : BitVec 5) (rt : BitVec 5) : Statement (.lbstV vd rd rt) := by
  show mkV 19#5 rt rd 0#1 16#5 vd &&& 0xFFE007E0#32 = 0x4A600200#32
  rw [show 0xFFE007E0#32 = 63#6 ++ 31#5 ++ 0#5 ++ 0#5 ++ 1#1 ++ 31#5 ++ 0#5 from rfl, and_mkV]
  simp

theorem lhstV (vd : BitVec 5) (rd : BitVec 5) (rt : BitVec 5) : Statement (.lhstV vd rd rt) := by
  show mkV 19#5 rt rd 0#1 17#5 vd &&& 0xFFE007E0#32 = 0x4A600220#32
  rw [show 0xFFE007E0#32 = 63#6 ++ 31#5 ++ 0#5 ++ 0#5 ++ 1#1 ++ 31#5 ++ 0#5 from rfl, and_mkV]
  simp

theorem lwstV (vd : BitVec 5) (rd : BitVec 5) (rt : BitVec 5) : Statement (.lwstV vd rd rt) := by
  show mkV 19#5 rt rd 0#1 19#5 vd &&& 0xFFE007E0#32 = 0x4A600260#32
  rw [show 0xFFE007E0#32 = 63#6 ++ 31#5 ++ 0#5 ++ 0#5 ++ 1#1 ++ 31#5 ++ 0#5 from rfl, and_mkV]
  simp

theorem lbustV (vd : BitVec 5) (rd : BitVec 5) (rt : BitVec 5) : Statement (.lbustV vd rd rt) := by
  show mkV 19#5 rt rd 0#1 20#5 vd &&& 0xFFE007E0#32 = 0x4A600280#32
  rw [show 0xFFE007E0#32 = 63#6 ++ 31#5 ++ 0#5 ++ 0#5 ++ 1#1 ++ 31#5 ++ 0#5 from rfl, and_mkV]
  simp

theorem lhustV (vd : BitVec 5) (rd : BitVec 5) (rt : BitVec 5) : Statement (.lhustV vd rd rt) := by
  show mkV 19#5 rt rd 0#1 21#5 vd &&& 0xFFE007E0#32 = 0x4A6002A0#32
  rw [show 0xFFE007E0#32 = 63#6 ++ 31#5 ++ 0#5 ++ 0#5 ++ 1#1 ++ 31#5 ++ 0#5 from rfl, and_mkV]
  simp

theorem sbaiV (vd : BitVec 5) (rd : BitVec 5) (rt : BitVec 5) : Statement (.sbaiV vd rd rt) := by
  show mkV 19#5 rt rd 0#1 8#5 vd &&& 0xFFE007E0#32 = 0x4A600100#32
  rw [show 0xFFE007E0#32 = 63#6 ++ 31#5 ++ 0#5 ++ 0#5 ++ 1#1 ++ 31#5 ++ 0#5 from rfl, and_mkV]
  simp

theorem shaiV (vd : BitVec 5) (rd : BitVec 5) (rt : BitVec 5) : Statement (.shaiV vd rd rt) := by
  show mkV 19#5 rt rd 0#1 9#5 vd &&& 0xFFE007E0#32 = 0x4A600120#32
  rw [show 0xFFE007E0#32 = 63#6 ++ 31#5 ++ 0#5 ++ 0#5 ++ 1#1 ++ 31#5 ++ 0#5 from rfl, and_mkV]
  simp

theorem swaiV (vd : BitVec 5) (rd : BitVec 5) (rt : BitVec 5) : Statement (.swaiV vd rd rt) := by
  show mkV 19#5 rt rd 0#1 11#5 vd &&& 0xFFE007E0#32 = 0x4A600160#32
  rw [show 0xFFE007E0#32 = 63#6 ++ 31#5 ++ 0#5 ++ 0#5 ++ 1#1 ++ 31#5 ++ 0#5 from rfl, and_mkV]
  simp

theorem sbxV (vd : BitVec 5) (rd : BitVec 5) (vt : BitVec 5) : Statement (.sbxV vd rd vt) := by
  show mkV 18#5 vt rd 0#1 24#5 vd &&& 0xFFE007E0#32 = 0x4A400300#32
  rw [show 0xFFE007E0#32 = 63#6 ++ 31#5 ++ 0#5 ++ 0#5 ++ 1#1 ++ 31#5 ++ 0#5 from rfl, and_mkV]
  simp

theorem shxV (vd : BitVec 5) (rd : BitVec 5) (vt : BitVec 5) : Statement (.shxV vd rd vt) := by
  show mkV 18#5 vt rd 0#1 25#5 vd &&& 0xFFE007E0#32 = 0x4A400320#32
  rw [show 0xFFE007E0#32 = 63#6 ++ 31#5 ++ 0#5 ++ 0#5 ++ 1#1 ++ 31#5 ++ 0#5 from rfl, and_mkV]
  simp

theorem swxV (vd : BitVec 5) (rd : BitVec 5) (vt : BitVec 5) : Statement (.swxV vd rd vt) := by
  show mkV 18#5 vt rd 0#1 27#5 vd &&& 0xFFE007E0#32 = 0x4A400360#32
  rw [show 0xFFE007E0#32 = 63#6 ++ 31#5 ++ 0#5 ++ 0#5 ++ 1#1 ++ 31#5 ++ 0#5 from rfl, and_mkV]
  simp

theorem sbstV (vd : BitVec 5) (rd : BitVec 5) (rt : BitVec 5) : Statement (.sbstV vd rd rt) := by
  show mkV 19#5 rt rd 0#1 24#5 vd &&& 0xFFE007E0#32 = 0x4A600300#32
  rw [show 0xFFE007E0#32 = 63#6 ++ 31#5 ++ 0#5 ++ 0#5 ++ 1#1 ++ 31#5 ++ 0#5 from rfl, and_mkV]
  simp

theorem shstV (vd : BitVec 5) (rd : BitVec 5) (rt : BitVec 5) : Statement (.shstV vd rd rt) := by
  show mkV 19#5 rt rd 0#1 25#5 vd &&& 0xFFE007E0#32 = 0x4A600320#32
  rw [show 0xFFE007E0#32 = 63#6 ++ 31#5 ++ 0#5 ++ 0#5 ++ 1#1 ++ 31#5 ++ 0#5 from rfl, and_mkV]
  simp

theorem swstV (vd : BitVec 5) (rd : BitVec 5) (rt : BitVec 5) : Statement (.swstV vd rd rt) := by
  show mkV 19#5 rt rd 0#1 27#5 vd &&& 0xFFE007E0#32 = 0x4A600360#32
  rw [show 0xFFE007E0#32 = 63#6 ++ 31#5 ++ 0#5 ++ 0#5 ++ 1#1 ++ 31#5 ++ 0#5 from rfl, and_mkV]
  simp

theorem andVv (vw : BitVec 5) (vd : BitVec 5) (vt : BitVec 5) : Statement (.andVv vw vd vt) := by
  show mkV 20#5 vt 20#5 0#1 vw vd &&& 0xFFE0FC00#32 = 0x4A80A000#32
  rw [show 0xFFE0FC00#32 = 63#6 ++ 31#5 ++ 0#5 ++ 31#5 ++ 1#1 ++ 0#5 ++ 0#5 from rfl, and_mkV]
  simp

theorem andVs (vw : BitVec 5) (vd : BitVec 5) (rt : BitVec 5) : Statement (.andVs vw vd rt) := by
  show mkV 21#5 rt 20#5 0#1 vw vd &&& 0xFFE0FC00#32 = 0x4AA0A000#32
  rw [show 0xFFE0FC00#32 = 63#6 ++ 31#5 ++ 0#5 ++ 31#5 ++ 1#1 ++ 0#5 ++ 0#5 from rfl, and_mkV]
  simp

theorem orVv (vw : BitVec 5) (vd : BitVec 5) (vt : BitVec 5) : Statement (.orVv vw vd vt) := by
  show mkV 20#5 vt 21#5 0#1 vw vd &&& 0xFFE0FC00#32 = 0x4A80A800#32
  rw [show 0xFFE0FC00#32 = 63#6 ++ 31#5 ++ 0#5 ++ 31#5 ++ 1#1 ++ 0#5 ++ 0#5 from rfl, and_mkV]
  simp

theorem orVs (vw : BitVec 5) (vd : BitVec 5) (rt : BitVec 5) : Statement (.orVs vw vd rt) := by
  show mkV 21#5 rt 21#5 0#1 vw vd &&& 0xFFE0FC00#32 = 0x4AA0A800#32
  rw [show 0xFFE0FC00#32 = 63#6 ++ 31#5 ++ 0#5 ++ 31#5 ++ 1#1 ++ 0#5 ++ 0#5 from rfl, and_mkV]
  simp

theorem xorVv (vw : BitVec 5) (vd : BitVec 5) (vt : BitVec 5) : Statement (.xorVv vw vd vt) := by
  show mkV 20#5 vt 22#5 0#1 vw vd &&& 0xFFE0FC00#32 = 0x4A80B000#32
  rw [show 0xFFE0FC00#32 = 63#6 ++ 31#5 ++ 0#5 ++ 31#5 ++ 1#1 ++ 0#5 ++ 0#5 from rfl, and_mkV]
  simp

theorem xorVs (vw : BitVec 5) (vd : BitVec 5) (rt : BitVec 5) : Statement (.xorVs vw vd rt) := by
  show mkV 21#5 rt 22#5 0#1 vw vd &&& 0xFFE0FC00#32 = 0x4AA0B000#32
  rw [show 0xFFE0FC00#32 = 63#6 ++ 31#5 ++ 0#5 ++ 31#5 ++ 1#1 ++ 0#5 ++ 0#5 from rfl, and_mkV]
  simp

theorem norVv (vw : BitVec 5) (vd : BitVec 5) (vt : BitVec 5) : Statement (.norVv vw vd vt) := by
  show mkV 20#5 vt 23#5 0#1 vw vd &&& 0xFFE0FC00#32 = 0x4A80B800#32
  rw [show 0xFFE0FC00#32 = 63#6 ++ 31#5 ++ 0#5 ++ 31#5 ++ 1#1 ++ 0#5 ++ 0#5 from rfl, and_mkV]
  simp

theorem norVs (vw : BitVec 5) (vd : BitVec 5) (rt : BitVec 5) : Statement (.norVs vw vd rt) := by
  show mkV 21#5 rt 23#5 0#1 vw vd &&& 0xFFE0FC00#32 = 0x4AA0B800#32
  rw [show 0xFFE0FC00#32 = 63#6 ++ 31#5 ++ 0#5 ++ 31#5 ++ 1#1 ++ 0#5 ++ 0#5 from rfl, and_mkV]
  simp

theorem addVv (vw : BitVec 5) (vd : BitVec 5) (vt : BitVec 5) : Statement (.addVv vw vd vt) := by
  show mkV 20#5 vt 16#5 0#1 vw vd &&& 0xFFE0FC00#32 = 0x4A808000#32
  rw [show 0xFFE0FC00#32 = 63#6 ++ 31#5 ++ 0#5 ++ 31#5 ++ 1#1 ++ 0#5 ++ 0#5 from rfl, and_mkV]
  simp

theorem addVs (vw : BitVec 5) (vd : BitVec 5) (rt : BitVec 5) : Statement (.addVs vw vd rt) := by
  show mkV 21#5 rt 16#5 0#1 vw vd &&& 0xFFE0FC00#32 = 0x4AA08000#32
  rw [show 0xFFE0FC00#32 = 63#6 ++ 31#5 ++ 0#5 ++ 31#5 ++ 1#1 ++ 0#5 ++ 0#5 from rfl, and_mkV]
  simp

theorem adduVv (vw : BitVec 5) (vd : BitVec 5) (vt : BitVec 5) : Statement (.adduVv vw vd vt) := by
  show mkV 20#5 vt 17#5 0#1 vw vd &&& 0xFFE0FC00#32 = 0x4A808800#32
  rw [show 0xFFE0FC00#32 = 63#6 ++ 31#5 ++ 0#5 ++ 31#5 ++ 1#1 ++ 0#5 ++ 0#5 from rfl, and_mkV]
  simp

theorem adduVs (vw : BitVec 5) (vd : BitVec 5) (rt : BitVec 5) : Statement (.adduVs vw vd rt) := by
  show mkV 21#5 rt 17#5 0#1 vw vd &&& 0xFFE0FC00#32 = 0x4AA08800#32
  rw [show 0xFFE0FC00#32 = 63#6 ++ 31#5 ++ 0#5 ++ 31#5 ++ 1#1 ++ 0#5 ++ 0#5 from rfl, and_mkV]
  simp

theorem subVv (vw : BitVec 5) (vd : BitVec 5) (vt : BitVec 5) : Statement (.subVv vw vd vt) := by
  show mkV 20#5 vt 0#5 0#1 vw vd &&& 0xFFE0FC00#32 = 0x4A800000#32
  rw [show 0xFFE0FC00#32 = 63#6 ++ 31#5 ++ 0#5 ++ 31#5 ++ 1#1 ++ 0#5 ++ 0#5 from rfl, and_mkV]
  simp

theorem subVs (vw : BitVec 5) (vd : BitVec 5) (rt : BitVec 5) : Statement (.subVs vw vd rt) := by
  show mkV 21#5 rt 0#5 0#1 vw vd &&& 0xFFE0FC00#32 = 0x4AA00000#32
  rw [show 0xFFE0FC00#32 = 63#6 ++ 31#5 ++ 0#5 ++ 31#5 ++ 1#1 ++ 0#5 ++ 0#5 from rfl, and_mkV]
  simp

theorem subSv (vw : BitVec 5) (rt : BitVec 5) (vd : BitVec 5) : Statement (.subSv vw rt vd) := by
  show mkV 21#5 rt 0#5 1#1 vw vd &&& 0xFFE0FC00#32 = 0x4AA00400#32
  rw [show 0xFFE0FC00#32 = 63#6 ++ 31#5 ++ 0#5 ++ 31#5 ++ 1#1 ++ 0#5 ++ 0#5 from rfl, and_mkV]
  simp

theorem subuVv (vw : BitVec 5) (vd : BitVec 5) (vt : BitVec 5) : Statement (.subuVv vw vd vt) := by
  show mkV 20#5 vt 1#5 0#1 vw vd &&& 0xFFE0FC00#32 = 0x4A800800#32
  rw [show 0xFFE0FC00#32 = 63#6 ++ 31#5 ++ 0#5 ++ 31#5 ++ 1#1 ++ 0#5 ++ 0#5 from rfl, and_mkV]
  simp

theorem subuVs (vw : BitVec 5) (vd : BitVec 5) (rt : BitVec 5) : Statement (.subuVs vw vd rt) := by
  show mkV 21#5 rt 1#5 0#1 vw vd &&& 0xFFE0FC00#32 = 0x4AA00800#32
  rw [show 0xFFE0FC00#32 = 63#6 ++ 31#5 ++ 0#5 ++ 31#5 ++ 1#1 ++ 0#5 ++ 0#5 from rfl, and_mkV]
  simp

theorem subuSv (vw : BitVec 5) (rt : BitVec 5) (vd : BitVec 5) : Statement (.subuSv vw rt vd) := by
  show mkV 21#5 rt 1#5 1#1 vw vd &&& 0xFFE0FC00#32 = 0x4AA00C00#32
  rw [show 0xFFE0FC00#32 = 63#6 ++ 31#5 ++ 0#5 ++ 31#5 ++ 1#1 ++ 0#5 ++ 0#5 from rfl, and_mkV]
  simp

theorem sllvVv (vw : BitVec 5) (vd : BitVec 5) (vt : BitVec 5) : Statement (.sllvVv vw vd vt) := by
  show mkV 20#5 vt 8#5 0#1 vw vd &&& 0xFFE0FC00#32 = 0x4A804000#32
  rw [show 0xFFE0FC00#32 = 63#6 ++ 31#5 ++ 0#5 ++ 31#5 ++ 1#1 ++ 0#5 ++ 0#5 from rfl, and_mkV]
  simp

theorem sllvVs (vw : BitVec 5) (vd : BitVec 5) (rt : BitVec 5) : Statement (.sllvVs vw vd rt) := by
  show mkV 21#5 rt 8#5 0#1 vw vd &&& 0xFFE0FC00#32 = 0x4AA04000#32
  rw [show 0xFFE0FC00#32 = 63#6 ++ 31#5 ++ 0#5 ++ 31#5 ++ 1#1 ++ 0#5 ++ 0#5 from rfl, and_mkV]
  simp

theorem sllvSv (vw : BitVec 5) (rt : BitVec 5) (vd : BitVec 5) : Statement (.sllvSv vw rt vd) := by
  show mkV 21#5 rt 8#5 1#1 vw vd &&& 0xFFE0FC00#32 = 0x4AA04400#32
  rw [show 0xFFE0FC00#32 = 63#6 ++ 31#5 ++ 0#5 ++ 31#5 ++ 1#1 ++ 0#5 ++ 0#5 from rfl, and_mkV]
  simp

theorem sravVv (vw : BitVec 5) (vd : BitVec 5) (vt : BitVec 5) : Statement (.sravVv vw vd vt) := by
  show mkV 20#5 vt 11#5 0#1 vw vd &&& 0xFFE0FC00#32 = 0x4A805800#32
  rw [show 0xFFE0FC00#32 = 63#6 ++ 31#5 ++ 0#5 ++ 31#5 ++ 1#1 ++ 0#5 ++ 0#5 from rfl, and_mkV]
  simp

theorem sravVs (vw : BitVec 5) (vd : BitVec 5) (rt : BitVec 5) : Statement (.sravVs vw vd rt) := by
  show mkV 21#5 rt 11#5 0#1 vw vd &&& 0xFFE0FC00#32 = 0x4AA05800#32
  rw [show 0xFFE0FC00#32 = 63#6 ++ 31#5 ++ 0#5 ++ 31#5 ++ 1#1 ++ 0#5 ++ 0#5 from rfl, and_mkV]
  simp

theorem sravSv (vw : BitVec 5) (rt : BitVec 5) (vd : BitVec 5) : Statement (.sravSv vw rt vd) := by
  show mkV 21#5 rt 11#5 1#1 vw vd &&& 0xFFE0FC00#32 = 0x4AA05C00#32
  rw [show 0xFFE0FC00#32 = 63#6 ++ 31#5 ++ 0#5 ++ 31#5 ++ 1#1 ++ 0#5 ++ 0#5 from rfl, and_mkV]
  simp

theorem srlvVv (vw : BitVec 5) (vd : BitVec 5) (vt : BitVec 5) : Statement (.srlvVv vw vd vt) := by
  show mkV 20#5 vt 9#5 0#1 vw vd &&& 0xFFE0FC00#32 = 0x4A804800#32
  rw [show 0xFFE0FC00#32 = 63#6 ++ 31#5 ++ 0#5 ++ 31#5 ++ 1#1 ++ 0#5 ++ 0#5 from rfl, and_mkV]
  simp

theorem srlvVs (vw : BitVec 5) (vd : BitVec 5) (rt : BitVec 5) : Statement (.srlvVs vw vd rt) := by
  show mkV 21#5 rt 9#5 0#1 vw vd &&& 0xFFE0FC00#32 = 0x4AA04800#32
  rw [show 0xFFE0FC00#32 = 63#6 ++ 31#5 ++ 0#5 ++ 31#5 ++ 1#1 ++ 0#5 ++ 0#5 from rfl, and_mkV]
  simp

theorem srlvSv (vw : BitVec 5) (rt : BitVec 5) (vd : BitVec 5) : Statement (.srlvSv vw rt vd) := by
  show mkV 21#5 rt 9#5 1#1 vw vd &&& 0xFFE0FC00#32 = 0x4AA04C00#32
  rw [show 0xFFE0FC00#32 = 63#6 ++ 31#5 ++ 0#5 ++ 31#5 ++ 1#1 ++ 0#5 ++ 0#5 from rfl, and_mkV]
  simp

theorem sltVv (vw : BitVec 5) (vd : BitVec 5) (vt : BitVec 5) : Statement (.sltVv vw vd vt) := by
  show mkV 20#5 vt 12#5 0#1 vw vd &&& 0xFFE0FC00#32 = 0x4A806000#32
  rw [show 0xFFE0FC00#32 = 63#6 ++ 31#5 ++ 0#5 ++ 31#5 ++ 1#1 ++ 0#5 ++ 0#5 from rfl, and_mkV]
  simp

theorem sltVs (vw : BitVec 5) (vd : BitVec 5) (rt : BitVec 5) : Statement (.sltVs vw vd rt) := by
  show mkV 21#5 rt 12#5 0#1 vw vd &&& 0xFFE0FC00#32 = 0x4AA06000#32
  rw [show 0xFFE0FC00#32 = 63#6 ++ 31#5 ++ 0#5 ++ 31#5 ++ 1#1 ++ 0#5 ++ 0#5 from rfl, and_mkV]
  simp

theorem sltSv (vw : BitVec 5) (rt : BitVec 5) (vd : BitVec 5) : Statement (.sltSv vw rt vd) := by
  show mkV 21#5 rt 12#5 1#1 vw vd &&& 0xFFE0FC00#32 = 0x4AA06400#32
  rw [show 0xFFE0FC00#32 = 63#6 ++ 31#5 ++ 0#5 ++ 31#5 ++ 1#1 ++ 0#5 ++ 0#5 from rfl, and_mkV]
  simp

theorem sltuVv (vw : BitVec 5) (vd : BitVec 5) (vt : BitVec 5) : Statement (.sltuVv vw vd vt) := by
  show mkV 20#5 vt 13#5 0#1 vw vd &&& 0xFFE0FC00#32 = 0x4A806800#32
  rw [show 0xFFE0FC00#32 = 63#6 ++ 31#5 ++ 0#5 ++ 31#5 ++ 1#1 ++ 0#5 ++ 0#5 from rfl, and_mkV]
  simp

theorem sltuVs (vw : BitVec 5) (vd : BitVec 5) (rt : BitVec 5) : Statement (.sltuVs vw vd rt) := by
  show mkV 21#5 rt 13#5 0#1 vw vd &&& 0xFFE0FC00#32 = 0x4AA06800#32
  rw [show 0xFFE0FC00#32 = 63#6 ++ 31#5 ++ 0#5 ++ 31#5 ++ 1#1 ++ 0#5 ++ 0#5 from rfl, and_mkV]
  simp

theorem sltuSv (vw : BitVec 5) (rt : BitVec 5) (vd : BitVec 5) : Statement (.sltuSv vw rt vd) := by
  show mkV 21#5 rt 13#5 1#1 vw vd &&& 0xFFE0FC00#32 = 0x4AA06C00#32
  rw [show 0xFFE0FC00#32 = 63#6 ++ 31#5 ++ 0#5 ++ 31#5 ++ 1#1 ++ 0#5 ++ 0#5 from rfl, and_mkV]
  simp

theorem seqVv (vw : BitVec 5) (vd : BitVec 5) (vt : BitVec 5) : Statement (.seqVv vw vd vt) := by
  show mkV 20#5 vt 14#5 0#1 vw vd &&& 0xFFE0FC00#32 = 0x4A807000#32
  rw [show 0xFFE0FC00#32 = 63#6 ++ 31#5 ++ 0#5 ++ 31#5 ++ 1#1 ++ 0#5 ++ 0#5 from rfl, and_mkV]
  simp

theorem seqVs (vw : BitVec 5) (vd : BitVec 5) (rt : BitVec 5) : Statement (.seqVs vw vd rt) := by
  show mkV 21#5 rt 14#5 0#1 vw vd &&& 0xFFE0FC00#32 = 0x4AA07000#32
  rw [show 0xFFE0FC00#32 = 63#6 ++ 31#5 ++ 0#5 ++ 31#5 ++ 1#1 ++ 0#5 ++ 0#5 from rfl, and_mkV]
  simp

theorem fltVv (vd : BitVec 5) (vt : BitVec 5) : Statement (.fltVv vd vt) := by
  show mkV 20#5 vt 4#5 0#1 0#5 vd &&& 0xFFE0FFE0#32 = 0x4A802000#32
  rw [show 0xFFE0FFE0#32 = 63#6 ++ 31#5 ++ 0#5 ++ 31#5 ++ 1#1 ++ 31#5 ++ 0#5 from rfl, and_mkV]
  simp

theorem fltVs (vd : BitVec 5) (rt : BitVec 5) : Statement (.fltVs vd rt) := by
  show mkV 21#5 rt 4#5 0#1 0#5 vd &&& 0xFFE0FFE0#32 = 0x4AA02000#32
  rw [show 0xFFE0FFE0#32 = 63#6 ++ 31#5 ++ 0#5 ++ 31#5 ++ 1#1 ++ 31#5 ++ 0#5 from rfl, and_mkV]
  simp

theorem fltSv (rt : BitVec 5) (vd : BitVec 5) : Statement (.fltSv rt vd) := by
  show mkV 21#5 rt 4#5 1#1 0#5 vd &&& 0xFFE0FFE0#32 = 0x4AA02400#32
  rw [show 0xFFE0FFE0#32 = 63#6 ++ 31#5 ++ 0#5 ++ 31#5 ++ 1#1 ++ 31#5 ++ 0#5 from rfl, and_mkV]
  simp

theorem fltuVv (vd : BitVec 5) (vt : BitVec 5) : Statement (.fltuVv vd vt) := by
  show mkV 20#5 vt 5#5 0#1 0#5 vd &&& 0xFFE0FFE0#32 = 0x4A802800#32
  rw [show 0xFFE0FFE0#32 = 63#6 ++ 31#5 ++ 0#5 ++ 31#5 ++ 1#1 ++ 31#5 ++ 0#5 from rfl, and_mkV]
  simp

theorem fltuVs (vd : BitVec 5) (rt : BitVec 5) : Statement (.fltuVs vd rt) := by
  show mkV 21#5 rt 5#5 0#1 0#5 vd &&& 0xFFE0FFE0#32 = 0x4AA02800#32
  rw [show 0xFFE0FFE0#32 = 63#6 ++ 31#5 ++ 0#5 ++ 31#5 ++ 1#1 ++ 31#5 ++ 0#5 from rfl, and_mkV]
  simp

theorem fltuSv (rt : BitVec 5) (vd : BitVec 5) : Statement (.fltuSv rt vd) := by
  show mkV 21#5 rt 5#5 1#1 0#5 vd &&& 0xFFE0FFE0#32 = 0x4AA02C00#32
  rw [show 0xFFE0FFE0#32 = 63#6 ++ 31#5 ++ 0#5 ++ 31#5 ++ 1#1 ++ 31#5 ++ 0#5 from rfl, and_mkV]
  simp

theorem feqVv (vd : BitVec 5) (vt : BitVec 5) : Statement (.feqVv vd vt) := by
  show mkV 20#5 vt 6#5 0#1 0#5 vd &&& 0xFFE0FFE0#32 = 0x4A803000#32
  rw [show 0xFFE0FFE0#32 = 63#6 ++ 31#5 ++ 0#5 ++ 31#5 ++ 1#1 ++ 31#5 ++ 0#5 from rfl, and_mkV]
  simp

theorem feqVs (vd : BitVec 5) (rt : BitVec 5) : Statement (.feqVs vd rt) := by
  show mkV 21#5 rt 6#5 0#1 0#5 vd &&& 0xFFE0FFE0#32 = 0x4AA03000#32
  rw [show 0xFFE0FFE0#32 = 63#6 ++ 31#5 ++ 0#5 ++ 31#5 ++ 1#1 ++ 31#5 ++ 0#5 from rfl, and_mkV]
  simp

theorem cmvnezVv (vw : BitVec 5) (vd : BitVec 5) (vt : BitVec 5) : Statement (.cmvnezVv vw vd vt) := by
  show mkV 20#5 vt 25#5 0#1 vw vd &&& 0xFFE0FC00#32 = 0x4A80C800#32
  rw [show 0xFFE0FC00#32 = 63#6 ++ 31#5 ++ 0#5 ++ 31#5 ++ 1#1 ++ 0#5 ++ 0#5 from rfl, and_mkV]
  simp

theorem cmvgezVv (vw : BitVec 5) (vd : BitVec 5) (vt : BitVec 5) : Statement (.cmvgezVv vw vd vt) := by
  show mkV 20#5 vt 26#5 0#1 vw vd &&& 0xFFE0FC00#32 = 0x4A80D000#32
  rw [show 0xFFE0FC00#32 = 63#6 ++ 31#5 ++ 0#5 ++ 31#5 ++ 1#1 ++ 0#5 ++ 0#5 from rfl, and_mkV]
  simp

theorem cmvlezVv (vw : BitVec 5) (vd : BitVec 5) (vt : BitVec 5) : Statement (.cmvlezVv vw vd vt) := by
  show mkV 20#5 vt 27#5 0#1 vw vd &&& 0xFFE0FC00#32 = 0x4A80D800#32
  rw [show 0xFFE0FC00#32 = 63#6 ++ 31#5 ++ 0#5 ++ 31#5 ++ 1#1 ++ 0#5 ++ 0#5 from rfl, and_mkV]
  simp

theorem cmveqzVv (vw : BitVec 5) (vd : BitVec 5) (vt : BitVec 5) : Statement (.cmveqzVv vw vd vt) := by
  show mkV 20#5 vt 29#5 0#1 vw vd &&& 0xFFE0FC00#32 = 0x4A80E800#32
  rw [show 0xFFE0FC00#32 = 63#6 ++ 31#5 ++ 0#5 ++ 31#5 ++ 1#1 ++ 0#5 ++ 0#5 from rfl, and_mkV]
  simp

theorem cmvltzVv (vw : BitVec 5) (vd : BitVec 5) (vt : BitVec 5) : Statement (.cmvltzVv vw vd vt) := by
  show mkV 20#5 vt 30#5 0#1 vw vd &&& 0xFFE0FC00#32 = 0x4A80F000#32
  rw [show 0xFFE0FC00#32 = 63#6 ++ 31#5 ++ 0#5 ++ 31#5 ++ 1#1 ++ 0#5 ++ 0#5 from rfl, and_mkV]
  simp

theorem cmvgtzVv (vw : BitVec 5) (vd : BitVec 5) (vt : BitVec 5) : Statement (.cmvgtzVv vw vd vt) := by
  show mkV 20#5 vt 31#5 0#1 vw vd &&& 0xFFE0FC00#32 = 0x4A80F800#32
  rw [show 0xFFE0FC00#32 = 63#6 ++ 31#5 ++ 0#5 ++ 31#5 ++ 1#1 ++ 0#5 ++ 0#5 from rfl, and_mkV]
  simp

theorem cmvnezVs (vw : BitVec 5) (vd : BitVec 5) (rt : BitVec 5) : Statement (.cmvnezVs vw vd rt) := by
  show mkV 21#5 rt 25#5 0#1 vw vd &&& 0xFFE0FC00#32 = 0x4AA0C800#32
  rw [show 0xFFE0FC00#32 = 63#6 ++ 31#5 ++ 0#5 ++ 31#5 ++ 1#1 ++ 0#5 ++ 0#5 from rfl, and_mkV]
  simp

theorem cmvgezVs (vw : BitVec 5) (vd : BitVec 5) (rt : BitVec 5) : Statement (.cmvgezVs vw vd rt) := by
  show mkV 21#5 rt 26#5 0#1 vw vd &&& 0xFFE0FC00#32 = 0x4AA0D000#32
  rw [show 0xFFE0FC00#32 = 63#6 ++ 31#5 ++ 0#5 ++ 31#5 ++ 1#1 ++ 0#5 ++ 0#5 from rfl, and_mkV]
  simp

theorem cmvlezVs (vw : BitVec 5) (vd : BitVec 5) (rt : BitVec 5) : Statement (.cmvlezVs vw vd rt) := by
  show mkV 21#5 rt 27#5 0#1 vw vd &&& 0xFFE0FC00#32 = 0x4AA0D800#32
  rw [show 0xFFE0FC00#32 = 63#6 ++ 31#5 ++ 0#5 ++ 31#5 ++ 1#1 ++ 0#5 ++ 0#5 from rfl, and_mkV]
  simp

theorem cmveqzVs (vw : BitVec 5) (vd : BitVec 5) (rt : BitVec 5) : Statement (.cmveqzVs vw vd rt) := by
  show mkV 21#5 rt 29#5 0#1 vw vd &&& 0xFFE0FC00#32 = 0x4AA0E800#32
  rw [show 0xFFE0FC00#32 = 63#6 ++ 31#5 ++ 0#5 ++ 31#5 ++ 1#1 ++ 0#5 ++ 0#5 from rfl, and_mkV]
  simp

theorem cmvltzVs (vw : BitVec 5) (vd : BitVec 5) (rt : BitVec 5) : Statement (.cmvltzVs vw vd rt) := by
  show mkV 21#5 rt 30#5 0#1 vw vd &&& 0xFFE0FC00#32 = 0x4AA0F000#32
  rw [show 0xFFE0FC00#32 = 63#6 ++ 31#5 ++ 0#5 ++ 31#5 ++ 1#1 ++ 0#5 ++ 0#5 from rfl, and_mkV]
  simp

theorem cmvgtzVs (vw : BitVec 5) (vd : BitVec 5) (rt : BitVec 5) : Statement (.cmvgtzVs vw vd rt) := by
  show mkV 21#5 rt 31#5 0#1 vw vd &&& 0xFFE0FC00#32 = 0x4AA0F800#32
  rw [show 0xFFE0FC00#32 = 63#6 ++ 31#5 ++ 0#5 ++ 31#5 ++ 1#1 ++ 0#5 ++ 0#5 from rfl, and_mkV]
  simp

theorem fxaddVv (vw : BitVec 5) (vd : BitVec 5) (vt : BitVec 5) (rd : BitVec 5) : Statement (.fxaddVv vw vd vt rd) := by
  show mkV 24#5 vt rd 0#1 vw vd &&& 0xFFE00400#32 = 0x4B000000#32
  rw [show 0xFFE00400#32 = 63#6 ++ 31#5 ++ 0#5 ++ 0#5 ++ 1#1 ++ 0#5 ++ 0#5 from rfl, and_mkV]
  simp

theorem fxaddVs (vw : BitVec 5) (vd : BitVec 5) (rt : BitVec 5) (rd : BitVec 5) : Statement (.fxaddVs vw vd rt rd) := by
  show mkV 25#5 rt rd 0#1 vw vd &&& 0xFFE00400#32 = 0x4B200000#32
  rw [show 0xFFE00400#32 = 63#6 ++ 31#5 ++ 0#5 ++ 0#5 ++ 1#1 ++ 0#5 ++ 0#5 from rfl, and_mkV]
  simp

theorem fxaddSv (vw : BitVec 5) (rt : BitVec 5) (vd : BitVec 5) (rd : BitVec 5) : Statement (.fxaddSv vw rt vd rd) := by
  show mkV 25#5 rt rd 1#1 vw vd &&& 0xFFE00400#32 = 0x4B200400#32
  rw [show 0xFFE00400#32 = 63#6 ++ 31#5 ++ 0#5 ++ 0#5 ++ 1#1 ++ 0#5 ++ 0#5 from rfl, and_mkV]
  simp

theorem fxsubVv (vw : BitVec 5) (vd : BitVec 5) (vt : BitVec 5) (rd : BitVec 5) : Statement (.fxsubVv vw vd vt rd) := by
  show mkV 26#5 vt rd 0#1 vw vd &&& 0xFFE00400#32 = 0x4B400000#32
  rw [show 0xFFE00400#32 = 63#6 ++ 31#5 ++ 0#5 ++ 0#5 ++ 1#1 ++ 0#5 ++ 0#5 from rfl, and_mkV]
  simp

theorem fxsubVs (vw : BitVec 5) (vd : BitVec 5) (rt : BitVec 5) (rd : BitVec 5) : Statement (.fxsubVs vw vd rt rd) := by
  show mkV 27#5 rt rd 0#1 vw vd &&& 0xFFE00400#32 = 0x4B600000#32
  rw [show 0xFFE00400#32 = 63#6 ++ 31#5 ++ 0#5 ++ 0#5 ++ 1#1 ++ 0#5 ++ 0#5 from rfl, and_mkV]
  simp

theorem fxsubSv (vw : BitVec 5) (rt : BitVec 5) (vd : BitVec 5) (rd : BitVec 5) : Statement (.fxsubSv vw rt vd rd) := by
  show mkV 27#5 rt rd 1#1 vw vd &&& 0xFFE00400#32 = 0x4B600400#32
  rw [show 0xFFE00400#32 = 63#6 ++ 31#5 ++ 0#5 ++ 0#5 ++ 1#1 ++ 0#5 ++ 0#5 from rfl, and_mkV]
  simp

theorem fxmulVv (vw : BitVec 5) (vd : BitVec 5) (vt : BitVec 5) (rd : BitVec 5) : Statement (.fxmulVv vw vd vt rd) := by
  show mkV 28#5 vt rd 0#1 vw vd &&& 0xFFE00400#32 = 0x4B800000#32
  rw [show 0xFFE00400#32 = 63#6 ++ 31#5 ++ 0#5 ++ 0#5 ++ 1#1 ++ 0#5 ++ 0#5 from rfl, and_mkV]
  simp

theorem fxmulVs (vw : BitVec 5) (vd : BitVec 5) (rt : BitVec 5) (rd : BitVec 5) : Statement (.fxmulVs vw vd rt rd) := by
  show mkV 29#5 rt rd 0#1 vw vd &&& 0xFFE00400#32 = 0x4BA00000#32
  rw [show 0xFFE00400#32 = 63#6 ++ 31#5 ++ 0#5 ++ 0#5 ++ 1#1 ++ 0#5 ++ 0#5 from rfl, and_mkV]
  simp

theorem fxmulSv (vw : BitVec 5) (rt : BitVec 5) (vd : BitVec 5) (rd : BitVec 5) : Statement (.fxmulSv vw rt vd rd) := by
  show mkV 29#5 rt rd 1#1 vw vd &&& 0xFFE00400#32 = 0x4BA00400#32
  rw [show 0xFFE00400#32 = 63#6 ++ 31#5 ++ 0#5 ++ 0#5 ++ 1#1 ++ 0#5 ++ 0#5 from rfl, and_mkV]
  simp

end Sys2Proof.Laws.RowMatch
end

