-- ==== Sys2Proof/WellFormed.lean ====
section
/-! DEFINITION. Which instructions are well formed: operand values the spec allows, whatever the state. -/

namespace Sys2Proof

/-- The numbers of the six control registers of Table 1 (R28, R29). -/
def validVcr (cs : BitVec 5) : Bool :=
  [0#5, 1#5, 2#5, 4#5, 8#5, 12#5].contains cs

/-- Every vector register an instruction names exists (R9, R106). -/
def Instr.vregsExist (i : Instr) : Bool := i.vregs.all fun k => decide (k.toNat < Config.nvreg)

/-- The operand rules that are not about vector register numbers: a unit-stride form has `rd` and `rt`
different (R264), JALR has `rd` and `rs` different (R182), a linking branch does not test `$31` (R189,
R190), and CFVU and CTVU name a control register (R240). -/
def Instr.operandsAllowed : Instr → Bool
  | .lbaiV _ rd rt | .lhaiV _ rd rt | .lwaiV _ rd rt | .lbuaiV _ rd rt | .lhuaiV _ rd rt
  | .sbaiV _ rd rt | .shaiV _ rd rt | .swaiV _ rd rt => rd != rt
  | .jalr rd rs => rd != rs
  | .bltzal rs _ | .bgezal rs _ | .bltzall rs _ | .bgezall rs _ => rs != 31#5
  | .cfvu _ cs | .ctvu _ cs => validVcr cs
  | _ => true

/-- A well-formed instruction. -/
def Instr.wf (i : Instr) : Bool := i.vregsExist && i.operandsAllowed

end Sys2Proof
end

