-- ==== Sys2Proof/Tests/Slice0.lean ====
section
/-! SUPPORT. Our tests: what well-formedness refuses, the words of every instruction, single steps with
the results the spec's vector tables give (files 95 and 96), and a witness for every statement. -/

namespace Sys2Proof.Tests

open Sys2Proof.Machine Sys2Proof.Safety Sys2Proof.Claims

/-! ### Well-formedness refuses -/

theorem test_wf_absent_register : (Instr.addVv 16#5 1#5 2#5).wf = false := by decide
theorem test_wf_absent_index : (Instr.lwxV 1#5 2#5 31#5).wf = false := by decide
theorem test_wf_increment_is_base : (Instr.lwaiV 1#5 4#5 4#5).wf = false := by decide
theorem test_wf_store_increment_is_base : (Instr.sbaiV 1#5 0#5 0#5).wf = false := by decide
theorem test_wf_jalr_same : (Instr.jalr 7#5 7#5).wf = false := by decide
theorem test_wf_link_tests_31 :
    [Instr.bltzal 31#5 0#16, .bgezal 31#5 0#16, .bltzall 31#5 0#16, .bgezall 31#5 0#16].all
      (fun i => i.wf == false) = true := by decide
theorem test_wf_no_control_register :
    [3#5, 5#5, 6#5, 7#5, 9#5, 10#5, 11#5, 13#5, 31#5].all
      (fun cs => (Instr.cfvu 1#5 cs).wf == false && (Instr.ctvu 1#5 cs).wf == false) = true := by decide
theorem test_wf_accepts :
    [Instr.addVs 15#5 1#5 31#5, .lwaiV 1#5 4#5 9#5, .jalr 31#5 7#5, .cfvu 1#5 12#5, .bltzal 30#5 0#16].all
      Instr.wf = true := by decide

/-! ### Words written out from the encodings

Each word is written field by field as file 30 and the instruction's own rule print it, with a different
number in every operand field. -/

/-- The word decodes to the instruction, and the instruction's word is that one. -/
def isWord (p : Word × Instr) : Bool := decode p.1 == .instr p.2 && encode p.2 == p.1

theorem test_words_scalar_computation_a : ([
    (0b000000_10010_01001_00101_00000_100000#32, .add 5#5 18#5 9#5),
    (0b000000_10010_01001_00101_00000_100001#32, .addu 5#5 18#5 9#5),
    (0b000000_10010_01001_00101_00000_100010#32, .sub 5#5 18#5 9#5),
    (0b000000_10010_01001_00101_00000_100011#32, .subu 5#5 18#5 9#5),
    (0b000000_10010_01001_00101_00000_100100#32, .and 5#5 18#5 9#5),
    (0b000000_10010_01001_00101_00000_100101#32, .or 5#5 18#5 9#5),
    (0b000000_10010_01001_00101_00000_100110#32, .xor 5#5 18#5 9#5),
    (0b000000_10010_01001_00101_00000_100111#32, .nor 5#5 18#5 9#5),
    (0b000000_10010_01001_00101_00000_101010#32, .slt 5#5 18#5 9#5),
    (0b000000_10010_01001_00101_00000_101011#32, .sltu 5#5 18#5 9#5),
    (0b000000_00000_01001_00101_00011_000000#32, .sll 5#5 9#5 3#5),
    (0b000000_00000_01001_00101_00011_000010#32, .srl 5#5 9#5 3#5),
    (0b000000_00000_01001_00101_00011_000011#32, .sra 5#5 9#5 3#5),
    (0b000000_10010_01001_00101_00000_000100#32, .sllv 5#5 9#5 18#5),
    (0b000000_10010_01001_00101_00000_000110#32, .srlv 5#5 9#5 18#5),
    (0b000000_10010_01001_00101_00000_000111#32, .srav 5#5 9#5 18#5),
    (0b001000_10010_01001_1000111100000011#32, .addi 9#5 18#5 36611#16),
    (0b001001_10010_01001_1000111100000011#32, .addiu 9#5 18#5 36611#16),
    (0b001010_10010_01001_1000111100000011#32, .slti 9#5 18#5 36611#16),
    (0b001011_10010_01001_1000111100000011#32, .sltiu 9#5 18#5 36611#16),
    (0b001100_10010_01001_1000111100000011#32, .andi 9#5 18#5 36611#16),
    (0b001101_10010_01001_1000111100000011#32, .ori 9#5 18#5 36611#16),
    (0b001110_10010_01001_1000111100000011#32, .xori 9#5 18#5 36611#16),
    (0b001111_00000_01001_1000111100000011#32, .lui 9#5 36611#16)] :
    List (Word × Instr)).all isWord = true := by decide

theorem test_words_scalar_computation_b : ([
    (0b000000_10010_01001_00000_00000_011000#32, .mult 18#5 9#5),
    (0b000000_10010_01001_00000_00000_011001#32, .multu 18#5 9#5),
    (0b000000_10010_01001_00000_00000_011010#32, .div 18#5 9#5),
    (0b000000_10010_01001_00000_00000_011011#32, .divu 18#5 9#5),
    (0b000000_00000_00000_00101_00000_010000#32, .mfhi 5#5),
    (0b000000_10010_00000_00000_00000_010001#32, .mthi 18#5),
    (0b000000_00000_00000_00101_00000_010010#32, .mflo 5#5),
    (0b000000_10010_00000_00000_00000_010011#32, .mtlo 18#5)] :
    List (Word × Instr)).all isWord = true := by decide

theorem test_words_scalar_memory_control_a : ([
    (0b100000_11010_01001_1000111100000110#32, .lb 9#5 36614#16 26#5),
    (0b100100_11010_01001_1000111100000110#32, .lbu 9#5 36614#16 26#5),
    (0b100001_11010_01001_1000111100000110#32, .lh 9#5 36614#16 26#5),
    (0b100101_11010_01001_1000111100000110#32, .lhu 9#5 36614#16 26#5),
    (0b100011_11010_01001_1000111100000110#32, .lw 9#5 36614#16 26#5),
    (0b100010_11010_01001_1000111100000110#32, .lwl 9#5 36614#16 26#5),
    (0b100110_11010_01001_1000111100000110#32, .lwr 9#5 36614#16 26#5),
    (0b101000_11010_01001_1000111100000110#32, .sb 9#5 36614#16 26#5),
    (0b101001_11010_01001_1000111100000110#32, .sh 9#5 36614#16 26#5),
    (0b101011_11010_01001_1000111100000110#32, .sw 9#5 36614#16 26#5),
    (0b101010_11010_01001_1000111100000110#32, .swl 9#5 36614#16 26#5),
    (0b101110_11010_01001_1000111100000110#32, .swr 9#5 36614#16 26#5),
    (0b110000_11010_01001_1000111100000110#32, .ll 9#5 36614#16 26#5),
    (0b111000_11010_01001_1000111100000110#32, .sc 9#5 36614#16 26#5),
    (0b000000_00000_00000_00000_00000_001111#32, .sync),
    (0b000010_10001101000101011001110001#32, .j 36984433#26),
    (0b000011_10001101000101011001110001#32, .jal 36984433#26),
    (0b000000_10010_00000_00000_00000_001000#32, .jr 18#5),
    (0b000000_10010_00000_00101_00000_001001#32, .jalr 5#5 18#5),
    (0b000100_10010_01001_1000111100000110#32, .beq 18#5 9#5 36614#16),
    (0b000101_10010_01001_1000111100000110#32, .bne 18#5 9#5 36614#16),
    (0b000110_10010_00000_1000111100000110#32, .blez 18#5 36614#16),
    (0b000111_10010_00000_1000111100000110#32, .bgtz 18#5 36614#16),
    (0b000001_10010_00000_1000111100000110#32, .bltz 18#5 36614#16)] :
    List (Word × Instr)).all isWord = true := by decide

theorem test_words_scalar_memory_control_b : ([
    (0b000001_10010_00001_1000111100000110#32, .bgez 18#5 36614#16),
    (0b000001_10010_10000_1000111100000110#32, .bltzal 18#5 36614#16),
    (0b000001_10010_10001_1000111100000110#32, .bgezal 18#5 36614#16),
    (0b010100_10010_01001_1000111100000110#32, .beql 18#5 9#5 36614#16),
    (0b010101_10010_01001_1000111100000110#32, .bnel 18#5 9#5 36614#16),
    (0b010110_10010_00000_1000111100000110#32, .blezl 18#5 36614#16),
    (0b010111_10010_00000_1000111100000110#32, .bgtzl 18#5 36614#16),
    (0b000001_10010_00010_1000111100000110#32, .bltzl 18#5 36614#16),
    (0b000001_10010_00011_1000111100000110#32, .bgezl 18#5 36614#16),
    (0b000001_10010_10010_1000111100000110#32, .bltzall 18#5 36614#16),
    (0b000001_10010_10011_1000111100000110#32, .bgezall 18#5 36614#16),
    (0b000000_10010_01001_1010010110_110000#32, .tge 18#5 9#5 662#10),
    (0b000000_10010_01001_1010010110_110001#32, .tgeu 18#5 9#5 662#10),
    (0b000000_10010_01001_1010010110_110010#32, .tlt 18#5 9#5 662#10),
    (0b000000_10010_01001_1010010110_110011#32, .tltu 18#5 9#5 662#10),
    (0b000000_10010_01001_1010010110_110100#32, .teq 18#5 9#5 662#10),
    (0b000000_10010_01001_1010010110_110110#32, .tne 18#5 9#5 662#10),
    (0b000001_10010_01000_1000111100000011#32, .tgei 18#5 36611#16),
    (0b000001_10010_01001_1000111100000011#32, .tgeiu 18#5 36611#16),
    (0b000001_10010_01010_1000111100000011#32, .tlti 18#5 36611#16),
    (0b000001_10010_01011_1000111100000011#32, .tltiu 18#5 36611#16),
    (0b000001_10010_01100_1000111100000011#32, .teqi 18#5 36611#16),
    (0b000001_10010_01110_1000111100000011#32, .tnei 18#5 36611#16),
    (0b000000_10100101100011101001_001100#32, .syscall 678121#20)] :
    List (Word × Instr)).all isWord = true := by decide

theorem test_words_scalar_memory_control_c : ([
    (0b000000_10100101100011101001_001101#32, .brk 678121#20),
    (0b010000_10001101000101011001110010#32, .cop0 36984434#26),
    (0b010001_10001101000101011001110010#32, .cop1 36984434#26),
    (0b010011_10001101000101011001110010#32, .cop3 36984434#26),
    (0b110001_11010_01001_1000111100000110#32, .lwc1 9#5 36614#16 26#5),
    (0b111001_11010_01001_1000111100000110#32, .swc1 9#5 36614#16 26#5),
    (0b110101_11010_01001_1000111100000110#32, .ldc1 9#5 36614#16 26#5),
    (0b111101_11010_01001_1000111100000110#32, .sdc1 9#5 36614#16 26#5),
    (0b110010_11010_01001_1000111100000110#32, .lwc2 9#5 36614#16 26#5),
    (0b111010_11010_01001_1000111100000110#32, .swc2 9#5 36614#16 26#5),
    (0b110110_11010_01001_1000111100000110#32, .ldc2 9#5 36614#16 26#5),
    (0b111110_11010_01001_1000111100000110#32, .sdc2 9#5 36614#16 26#5),
    (0b110011_11010_01001_1000111100000110#32, .lwc3 9#5 36614#16 26#5),
    (0b111011_11010_01001_1000111100000110#32, .swc3 9#5 36614#16 26#5),
    (0b010010_00000_100100011010001011010#32, .mfc2 1193050#21),
    (0b010010_00100_100100011010001011010#32, .mtc2 1193050#21),
    (0b010010_01000_00000_1000111100000110#32, .bc2f 36614#16),
    (0b010010_01000_00001_1000111100000110#32, .bc2t 36614#16),
    (0b010010_01000_00010_1000111100000110#32, .bc2fl 36614#16),
    (0b010010_01000_00011_1000111100000110#32, .bc2tl 36614#16)] :
    List (Word × Instr)).all isWord = true := by decide

theorem test_words_vu_control : ([
    (0b010010_00010_01001_01100_0_00000_00000#32, .cfvu 9#5 12#5),
    (0b010010_00110_01001_01100_0_00000_00000#32, .ctvu 9#5 12#5)] :
    List (Word × Instr)).all isWord = true := by decide

theorem test_words_insert_extract : ([
    (0b010010_10000_01101_00101_0_01011_01011#32, .vextV 11#5 13#5 5#5),
    (0b010010_10001_01001_00101_0_10011_01011#32, .vinsS 9#5 11#5 5#5),
    (0b010010_10001_01001_00101_0_11011_01011#32, .vextS 9#5 11#5 5#5)] :
    List (Word × Instr)).all isWord = true := by decide

theorem test_words_vector_load_store : ([
    (0b010010_10011_01001_00101_0_00000_01011#32, .lbaiV 11#5 5#5 9#5),
    (0b010010_10011_01001_00101_0_00001_01011#32, .lhaiV 11#5 5#5 9#5),
    (0b010010_10011_01001_00101_0_00011_01011#32, .lwaiV 11#5 5#5 9#5),
    (0b010010_10011_01001_00101_0_00100_01011#32, .lbuaiV 11#5 5#5 9#5),
    (0b010010_10011_01001_00101_0_00101_01011#32, .lhuaiV 11#5 5#5 9#5),
    (0b010010_10010_01101_00101_0_10000_01011#32, .lbxV 11#5 5#5 13#5),
    (0b010010_10010_01101_00101_0_10001_01011#32, .lhxV 11#5 5#5 13#5),
    (0b010010_10010_01101_00101_0_10011_01011#32, .lwxV 11#5 5#5 13#5),
    (0b010010_10010_01101_00101_0_10100_01011#32, .lbuxV 11#5 5#5 13#5),
    (0b010010_10010_01101_00101_0_10101_01011#32, .lhuxV 11#5 5#5 13#5),
    (0b010010_10011_01001_00101_0_10000_01011#32, .lbstV 11#5 5#5 9#5),
    (0b010010_10011_01001_00101_0_10001_01011#32, .lhstV 11#5 5#5 9#5),
    (0b010010_10011_01001_00101_0_10011_01011#32, .lwstV 11#5 5#5 9#5),
    (0b010010_10011_01001_00101_0_10100_01011#32, .lbustV 11#5 5#5 9#5),
    (0b010010_10011_01001_00101_0_10101_01011#32, .lhustV 11#5 5#5 9#5),
    (0b010010_10011_01001_00101_0_01000_01011#32, .sbaiV 11#5 5#5 9#5),
    (0b010010_10011_01001_00101_0_01001_01011#32, .shaiV 11#5 5#5 9#5),
    (0b010010_10011_01001_00101_0_01011_01011#32, .swaiV 11#5 5#5 9#5),
    (0b010010_10010_01101_00101_0_11000_01011#32, .sbxV 11#5 5#5 13#5),
    (0b010010_10010_01101_00101_0_11001_01011#32, .shxV 11#5 5#5 13#5),
    (0b010010_10010_01101_00101_0_11011_01011#32, .swxV 11#5 5#5 13#5),
    (0b010010_10011_01001_00101_0_11000_01011#32, .sbstV 11#5 5#5 9#5),
    (0b010010_10011_01001_00101_0_11001_01011#32, .shstV 11#5 5#5 9#5),
    (0b010010_10011_01001_00101_0_11011_01011#32, .swstV 11#5 5#5 9#5)] :
    List (Word × Instr)).all isWord = true := by decide

theorem test_words_vector_integer_a : ([
    (0b010010_10100_01101_10100_0_00110_01011#32, .andVv 6#5 11#5 13#5),
    (0b010010_10101_01001_10100_0_00110_01011#32, .andVs 6#5 11#5 9#5),
    (0b010010_10100_01101_10101_0_00110_01011#32, .orVv 6#5 11#5 13#5),
    (0b010010_10101_01001_10101_0_00110_01011#32, .orVs 6#5 11#5 9#5),
    (0b010010_10100_01101_10110_0_00110_01011#32, .xorVv 6#5 11#5 13#5),
    (0b010010_10101_01001_10110_0_00110_01011#32, .xorVs 6#5 11#5 9#5),
    (0b010010_10100_01101_10111_0_00110_01011#32, .norVv 6#5 11#5 13#5),
    (0b010010_10101_01001_10111_0_00110_01011#32, .norVs 6#5 11#5 9#5),
    (0b010010_10100_01101_10000_0_00110_01011#32, .addVv 6#5 11#5 13#5),
    (0b010010_10101_01001_10000_0_00110_01011#32, .addVs 6#5 11#5 9#5),
    (0b010010_10100_01101_10001_0_00110_01011#32, .adduVv 6#5 11#5 13#5),
    (0b010010_10101_01001_10001_0_00110_01011#32, .adduVs 6#5 11#5 9#5),
    (0b010010_10100_01101_00000_0_00110_01011#32, .subVv 6#5 11#5 13#5),
    (0b010010_10101_01001_00000_0_00110_01011#32, .subVs 6#5 11#5 9#5),
    (0b010010_10101_01001_00000_1_00110_01011#32, .subSv 6#5 9#5 11#5),
    (0b010010_10100_01101_00001_0_00110_01011#32, .subuVv 6#5 11#5 13#5),
    (0b010010_10101_01001_00001_0_00110_01011#32, .subuVs 6#5 11#5 9#5),
    (0b010010_10101_01001_00001_1_00110_01011#32, .subuSv 6#5 9#5 11#5),
    (0b010010_10100_01101_01000_0_00110_01011#32, .sllvVv 6#5 11#5 13#5),
    (0b010010_10101_01001_01000_0_00110_01011#32, .sllvVs 6#5 11#5 9#5),
    (0b010010_10101_01001_01000_1_00110_01011#32, .sllvSv 6#5 9#5 11#5),
    (0b010010_10100_01101_01011_0_00110_01011#32, .sravVv 6#5 11#5 13#5),
    (0b010010_10101_01001_01011_0_00110_01011#32, .sravVs 6#5 11#5 9#5),
    (0b010010_10101_01001_01011_1_00110_01011#32, .sravSv 6#5 9#5 11#5)] :
    List (Word × Instr)).all isWord = true := by decide

theorem test_words_vector_integer_b : ([
    (0b010010_10100_01101_01001_0_00110_01011#32, .srlvVv 6#5 11#5 13#5),
    (0b010010_10101_01001_01001_0_00110_01011#32, .srlvVs 6#5 11#5 9#5),
    (0b010010_10101_01001_01001_1_00110_01011#32, .srlvSv 6#5 9#5 11#5)] :
    List (Word × Instr)).all isWord = true := by decide

theorem test_words_compare_flag_move_a : ([
    (0b010010_10100_01101_01100_0_00110_01011#32, .sltVv 6#5 11#5 13#5),
    (0b010010_10101_01001_01100_0_00110_01011#32, .sltVs 6#5 11#5 9#5),
    (0b010010_10101_01001_01100_1_00110_01011#32, .sltSv 6#5 9#5 11#5),
    (0b010010_10100_01101_01101_0_00110_01011#32, .sltuVv 6#5 11#5 13#5),
    (0b010010_10101_01001_01101_0_00110_01011#32, .sltuVs 6#5 11#5 9#5),
    (0b010010_10101_01001_01101_1_00110_01011#32, .sltuSv 6#5 9#5 11#5),
    (0b010010_10100_01101_01110_0_00110_01011#32, .seqVv 6#5 11#5 13#5),
    (0b010010_10101_01001_01110_0_00110_01011#32, .seqVs 6#5 11#5 9#5),
    (0b010010_10100_01101_00100_0_00000_01011#32, .fltVv 11#5 13#5),
    (0b010010_10101_01001_00100_0_00000_01011#32, .fltVs 11#5 9#5),
    (0b010010_10101_01001_00100_1_00000_01011#32, .fltSv 9#5 11#5),
    (0b010010_10100_01101_00101_0_00000_01011#32, .fltuVv 11#5 13#5),
    (0b010010_10101_01001_00101_0_00000_01011#32, .fltuVs 11#5 9#5),
    (0b010010_10101_01001_00101_1_00000_01011#32, .fltuSv 9#5 11#5),
    (0b010010_10100_01101_00110_0_00000_01011#32, .feqVv 11#5 13#5),
    (0b010010_10101_01001_00110_0_00000_01011#32, .feqVs 11#5 9#5),
    (0b010010_10100_01101_11001_0_00110_01011#32, .cmvnezVv 6#5 11#5 13#5),
    (0b010010_10100_01101_11010_0_00110_01011#32, .cmvgezVv 6#5 11#5 13#5),
    (0b010010_10100_01101_11011_0_00110_01011#32, .cmvlezVv 6#5 11#5 13#5),
    (0b010010_10100_01101_11101_0_00110_01011#32, .cmveqzVv 6#5 11#5 13#5),
    (0b010010_10100_01101_11110_0_00110_01011#32, .cmvltzVv 6#5 11#5 13#5),
    (0b010010_10100_01101_11111_0_00110_01011#32, .cmvgtzVv 6#5 11#5 13#5),
    (0b010010_10101_01001_11001_0_00110_01011#32, .cmvnezVs 6#5 11#5 9#5),
    (0b010010_10101_01001_11010_0_00110_01011#32, .cmvgezVs 6#5 11#5 9#5)] :
    List (Word × Instr)).all isWord = true := by decide

theorem test_words_compare_flag_move_b : ([
    (0b010010_10101_01001_11011_0_00110_01011#32, .cmvlezVs 6#5 11#5 9#5),
    (0b010010_10101_01001_11101_0_00110_01011#32, .cmveqzVs 6#5 11#5 9#5),
    (0b010010_10101_01001_11110_0_00110_01011#32, .cmvltzVs 6#5 11#5 9#5),
    (0b010010_10101_01001_11111_0_00110_01011#32, .cmvgtzVs 6#5 11#5 9#5)] :
    List (Word × Instr)).all isWord = true := by decide

theorem test_words_fixed_point : ([
    (0b010010_11000_01101_00101_0_00110_01011#32, .fxaddVv 6#5 11#5 13#5 5#5),
    (0b010010_11001_01001_00101_0_00110_01011#32, .fxaddVs 6#5 11#5 9#5 5#5),
    (0b010010_11001_01001_00101_1_00110_01011#32, .fxaddSv 6#5 9#5 11#5 5#5),
    (0b010010_11010_01101_00101_0_00110_01011#32, .fxsubVv 6#5 11#5 13#5 5#5),
    (0b010010_11011_01001_00101_0_00110_01011#32, .fxsubVs 6#5 11#5 9#5 5#5),
    (0b010010_11011_01001_00101_1_00110_01011#32, .fxsubSv 6#5 9#5 11#5 5#5),
    (0b010010_11100_01101_00101_0_00110_01011#32, .fxmulVv 6#5 11#5 13#5 5#5),
    (0b010010_11101_01001_00101_0_00110_01011#32, .fxmulVs 6#5 11#5 9#5 5#5),
    (0b010010_11101_01001_00101_1_00110_01011#32, .fxmulSv 6#5 9#5 11#5 5#5)] :
    List (Word × Instr)).all isWord = true := by decide

/-! ### Reserved words (file 96, section 2.1; R93 to R107, R121) -/

theorem test_words_reserved :
    [0x4AC00000#32, 0x4AE00000, 0x4BC00000, 0x4BE00000, 0x4A000000, 0x4A014562, 0x4A295163, 0x4A432062,
      0x4A4322E2, 0x4A6920E2, 0x4A692461, 0x4A821061, 0x4A82C061, 0x4A820461, 0x4AA98461, 0x4AA9EC61,
      0x4A822061, 0x4B024C61, 0x48400001, 0x48C81400, 0x60000000, 0x00000001, 0x04040000].all
      (fun w => decode w == .reserved) = true := by decide

theorem test_words_unused_bits : decode 0x00430860#32 = .unusedBits "add" := by decide

set_option maxRecDepth 2000

/-! ### Single steps (files 95 and 96) -/

/-- The state after the word `w` runs in `s`, if the step goes on or takes an exception. -/
def after (s : State) (w : Nat) : Option State :=
  match step (s.withFetchWord 32 w) with
  | .next t => some t
  | _ => none

/-- The exception the word `w` takes in `s`. -/
def exception (s : State) (w : Nat) : Option Exception := ((after s w).bind (·.trap)).map (·.exc)

/-- The refusal the word `w` meets in `s`. -/
def refusal (s : State) (w : Nat) : Option Refusal :=
  match step (s.withFetchWord 32 w) with
  | .refused r => some r
  | _ => none

/-- The fault the word `w` meets in `s`. -/
def faults (s : State) (w : Nat) : Option Fault :=
  match step (s.withFetchWord 32 w) with
  | .fault f => some f
  | _ => none

/-- The machine after reset with three general registers set. -/
def withRegs (a b c : Reg × Word) : State :=
  ((State.reset.setReg a.1 a.2).setReg b.1 b.2).setReg c.1 c.2

/-- `x[3]` and `x[4]` set. -/
def pair (a b : Word) : State := withRegs (3#5, a) (4#5, b) (2#5, 0xAAAAAAAA#32)

/-- A vector register whose first elements are the list. -/
def vec (l : List Word) : VecReg := Vector.ofFn fun i => (l[i.val]?).getD 0xDEADBEEF#32

/-- The first four elements of vector register `k`. -/
def four (t : State) (k : VReg) : List Word := (t.vreg k).toList.take 4

/-- `vlr` and two vector registers set, `x[8]` and `x[9]` besides. -/
def vecState (n : BitVec 8) (v1 v2 : List Word) (x8 x9 : Word) : State :=
  (({ withRegs (8#5, x8) (9#5, x9) (0#5, 0) with vlr := n }.setVreg 1#5 (vec v1)).setVreg 2#5
    (vec v2)).setVreg 3#5 (vec [])

/-- The sixteen bytes at 1000 of file 96, section 2.4, with `vlr = 4` and `x[4]`, `x[9]` and `x[2]` set. -/
def image (x4 x9 : Word) : State :=
  { withRegs (4#5, x4) (9#5, x9) (2#5, 0x11223344#32) with
    vlr := 4
    mem := [(0x1000, 0x80), (0x1001, 0x01), (0x1002, 0x7F), (0x1003, 0xFF), (0x1004, 0x12),
      (0x1005, 0x34), (0x1006, 0x56), (0x1007, 0x78), (0x1008, 0x9A), (0x1009, 0xBC), (0x100A, 0xDE),
      (0x100B, 0xF0), (0x100F, 0x01)] }

/-- The same machine, little-endian. -/
def little (s : State) : State := { s with params := { s.params with bigEndian := false } }

/-- The bytes of memory from `a` up. -/
def bytesAt (t : State) (a : Word) (n : Nat) : List Byte := t.bytes a n

/-! Scalar computation (file 96, section 2.9, rows 1 to 23). -/

theorem test_add_overflow : exception (pair 0x7FFFFFFF 1) 0x00641020 = some .integerOverflow := by decide
theorem test_add_overflow_keeps :
    (after (pair 0x7FFFFFFF 1) 0x00641020).map (·.reg 2#5) = some 0xAAAAAAAA#32 := by decide
theorem test_addu_wraps : (after (pair 0x7FFFFFFF 1) 0x00641021).map (·.reg 2#5) = some 0x80000000#32 := by
  decide
theorem test_addi_overflow : exception (pair 0x80000000 0) 0x20628000 = some .integerOverflow := by decide
theorem test_addiu_sign_extends :
    (after (pair 0 0) 0x2462FFFF).map (·.reg 2#5) = some 0xFFFFFFFF#32 := by decide
theorem test_subu : (after (pair 0x80000000 1) 0x00641023).map (·.reg 2#5) = some 0x7FFFFFFF#32 := by decide
theorem test_sub_overflow : exception (pair 0x80000000 1) 0x00641022 = some .integerOverflow := by decide
theorem test_slt : (after (pair 0xFFFFFFFF 1) 0x0064102A).map (·.reg 2#5) = some 1#32 := by decide
theorem test_sltu : (after (pair 0xFFFFFFFF 1) 0x0064102B).map (·.reg 2#5) = some 0#32 := by decide
theorem test_sltiu : (after (pair 5 0) 0x2C62FFFF).map (·.reg 2#5) = some 1#32 := by decide
theorem test_andi : (after (pair 0x12345678 0) 0x3062FFFF).map (·.reg 2#5) = some 0x5678#32 := by decide
theorem test_xori : (after (pair 0x12345678 0) 0x3862FFFF).map (·.reg 2#5) = some 0x1234A987#32 := by decide
theorem test_lui : (after (pair 0 0) 0x3C028001).map (·.reg 2#5) = some 0x80010000#32 := by decide
theorem test_sra : (after (pair 0x80000000 0x80000000) 0x000417C3).map (·.reg 2#5) = some 0xFFFFFFFF#32 := by
  decide
theorem test_srl : (after (pair 0x80000000 0) 0x000317C2).map (·.reg 2#5) = some 1#32 := by decide
theorem test_sllv : (after (pair 1 0x21) 0x00831004).map (·.reg 2#5) = some 2#32 := by decide
theorem test_x0_stays : (after (pair 0 0) 0x24000005).map (·.reg 0#5) = some 0#32 := by decide
theorem test_mult : (after (pair 0x80000000 0x80000000) 0x00640018).map (fun t => (t.hi, t.lo)) =
    some (0x40000000#32, 0#32) := by decide
theorem test_multu : (after (pair 0xFFFFFFFF 0xFFFFFFFF) 0x00640019).map (fun t => (t.hi, t.lo)) =
    some (0xFFFFFFFE#32, 1#32) := by decide
theorem test_div : (after (pair 7 0xFFFFFFFE) 0x0064001A).map (fun t => (t.hi, t.lo)) =
    some (1#32, 0xFFFFFFFD#32) := by decide
theorem test_div_negative : (after (pair 0xFFFFFFF9 2) 0x0064001A).map (fun t => (t.hi, t.lo)) =
    some (0xFFFFFFFF#32, 0xFFFFFFFD#32) := by decide
theorem test_divu : (after (pair 0xFFFFFFF9 2) 0x0064001B).map (fun t => (t.hi, t.lo)) =
    some (1#32, 0x7FFFFFFC#32) := by decide
theorem test_divu_by_zero_goes_on : (after (pair 1 0) 0x0064001B).map (·.trap) = some none := by decide

/-! Scalar memory (file 96, section 2.9, rows 24 to 39). -/

theorem test_lb : (after (image 0x1000 0) 0x80820000).map (·.reg 2#5) = some 0xFFFFFF80#32 := by decide
theorem test_lbu : (after (image 0x1000 0) 0x90820000).map (·.reg 2#5) = some 0x80#32 := by decide
theorem test_lh : (after (image 0x1000 0) 0x84820000).map (·.reg 2#5) = some 0xFFFF8001#32 := by decide
theorem test_lhu_little :
    (after (little (image 0x1000 0)) 0x94820000).map (·.reg 2#5) = some 0x0180#32 := by decide
theorem test_lw : (after (image 0x1008 0) 0x8C82FFFC).map (·.reg 2#5) = some 0x12345678#32 := by decide
theorem test_lw_little :
    (after (little (image 0x1000 0)) 0x8C820004).map (·.reg 2#5) = some 0x78563412#32 := by decide
theorem test_lh_misaligned : exception (image 0x1000 0) 0x84820001 = some (.addressErrorLoad 0x1001) := by
  decide
theorem test_sh_misaligned : exception (image 0x1000 0) 0xA4820001 = some (.addressErrorStore 0x1001) := by
  decide
theorem test_sw : (after (image 0x2000 0) 0xAC820000).map (bytesAt · 0x2000 4) =
    some [0x11, 0x22, 0x33, 0x44] := by decide
theorem test_sw_little : (after (little (image 0x2000 0)) 0xAC820000).map (bytesAt · 0x2000 4) =
    some [0x44, 0x33, 0x22, 0x11] := by decide
theorem test_sb : (after (image 0x2000 0) 0xA0820003).map (bytesAt · 0x2000 4) =
    some [0, 0, 0, 0x44] := by decide
theorem test_lwl : (after ((image 0x1005 0).setReg 2#5 0xEEEEEEEE) 0x88820000).map (·.reg 2#5) =
    some 0x345678EE#32 := by decide
theorem test_lwr : (after ((image 0x1005 0).setReg 2#5 0x345678EE) 0x98820003).map (·.reg 2#5) =
    some 0x3456789A#32 := by decide
theorem test_lwr_little :
    (after (little ((image 0x1005 0).setReg 2#5 0xEEEEEEEE)) 0x98820000).map (·.reg 2#5) =
      some 0xEE785634#32 := by decide
theorem test_lwl_little :
    (after (little ((image 0x1005 0).setReg 2#5 0xEE785634)) 0x88820003).map (·.reg 2#5) =
      some 0x9A785634#32 := by decide

/-! Control flow (file 96, section 2.9, rows 40 to 51). -/

/-- `P = 100`. -/
def at100 (s : State) : State := { s with pc := 0x100, npc := 0x104 }

theorem test_beq_taken : (after (at100 (pair 5 5)) 0x10640003).map (fun t => (t.pc, t.npc)) =
    some (0x104#32, 0x110#32) := by decide
theorem test_beq_untaken : (after (at100 (pair 5 6)) 0x10640003).map (fun t => (t.pc, t.npc)) =
    some (0x104#32, 0x108#32) := by decide
theorem test_bnel_untaken : (after (at100 (pair 5 5)) 0x54640003).map (·.pc) = some 0x108#32 := by decide
theorem test_bnel_taken : (after (at100 (pair 5 6)) 0x5464FFFE).map (fun t => (t.pc, t.npc)) =
    some (0x104#32, 0xFC#32) := by decide
theorem test_jal :
    (after { State.reset with pc := 0x10000100, npc := 0x10000104 } 0x0C000100).map
      (fun t => (t.reg 31#5, t.pc, t.npc)) = some (0x10000108#32, 0x10000104#32, 0x10000400#32) := by decide
theorem test_bltzal_untaken : (after (at100 (pair 1 0)) 0x04700004).map (fun t => (t.reg 31#5, t.npc)) =
    some (0x108#32, 0x108#32) := by decide
theorem test_jalr : (after (at100 (pair 0x2000 0)) 0x00602809).map (fun t => (t.reg 5#5, t.npc)) =
    some (0x108#32, 0x2000#32) := by decide
theorem test_jr_to_misaligned : (after (at100 (pair 0x2002 0)) 0x00600008).map (·.npc) = some 0x2002#32 := by
  decide
theorem test_syscall : exception State.reset 0x0000000C = some .syscall := by decide
theorem test_break : exception State.reset 0x0000000D = some .breakpoint := by decide
theorem test_teq : exception (pair 5 5) 0x00640034 = some .trap := by decide
theorem test_teq_passes : (after (pair 5 6) 0x00640034).map (·.trap) = some none := by decide
theorem test_delay_slot_reports_branch :
    (after { (at100 State.reset) with vlr := 33, slot := some ⟨0xFC, true⟩ } 0x4A828061).bind (·.trap) =
      some ⟨.vectorOperation, 0xFC, true⟩ := by decide

/-! Control register moves (file 96, section 2.2). -/

theorem test_ctvu_vlr : (after (vecState 0 [] [] 0x120 0) 0x48C81000).map (·.vlr) = some 32#8 := by decide
theorem test_cfvu_vlr : (after (vecState 255 [] [] 0 0) 0x48491000).map (·.reg 9#5) = some 0xFF#32 := by
  decide
theorem test_ctvu_read_only : (after (vecState 4 [] [] 0x12345678 0) 0x48C80800).map (·.vcount) =
    some 0#32 := by decide
theorem test_cfvu_no_register :
    refusal State.reset 0x48491800 = some .invalidControlRegister := by decide

/-! Insert and extract (file 96, section 2.3, rows 1, 5, 9, 12, 13, 16, 18). -/

theorem test_vins_beyond_vlr :
    (after ((vecState 4 [] [] 0 0xCAFEF00D).setReg 10#5 0x1F) 0x4A295262).map (·.elem 2#5 31) =
      some 0xCAFEF00D#32 := by decide
theorem test_vins_index : exception ((vecState 4 [] [] 0 0).setReg 10#5 0x1FF) 0x4A295262 =
    some .vectorOperation := by decide
theorem test_vext_s_same_register :
    (after ((vecState 4 [7, 8, 9] [] 0 0).setReg 10#5 2) 0x4A2A5361).map (·.reg 10#5) = some 9#32 := by decide
theorem test_vext_v :
    (after (vecState 4 ((List.range 32).map (BitVec.ofNat 32 <| 0x100 + ·)) [] 28 0) 0x4A014162).map
      (fun t => (four t 2#5, t.elem 2#5 4)) =
      some ([0x11C#32, 0x11D#32, 0x11E#32, 0x11F#32], 0xDEADBEEF#32) := by decide
theorem test_vext_v_range : exception (vecState 4 [] [] 29 0) 0x4A014162 = some .vectorOperation := by decide

/-! Vector loads and stores (file 96, section 2.4). -/

theorem test_lbai : (after (image 0x1000 4) 0x4A692001).map (fun t => (four t 1#5, t.reg 4#5)) =
    some ([0xFFFFFF80#32, 1#32, 0x7F#32, 0xFFFFFFFF#32], 0x1004#32) := by decide
theorem test_lhuai_no_increment :
    (after (image 0x1000 8) 0x4A6020A1).map (fun t => (four t 1#5, t.reg 4#5)) =
      some ([0x8001#32, 0x7FFF#32, 0x1234#32, 0x5678#32], 0x1000#32) := by decide
theorem test_lwai_little : (after (little (image 0x1000 16)) 0x4A692061).map (four · 1#5) =
    some [0xFF7F0180#32, 0x78563412#32, 0xF0DEBC9A#32, 0x01000000#32] := by decide
theorem test_lhai_checks_base : exception { image 0x1001 0 with vlr := 0 } 0x4A692021 =
    some (.vectorAddress 0x1001) := by decide
theorem test_lwai_increments_without_elements :
    (after { image 0x1000 16 with vlr := 0 } 0x4A692061).map (·.reg 4#5) = some 0x1010#32 := by decide
theorem test_lwst_negative : (after (image 0x100C 0xFFFFFFFC) 0x4A692261).map (four · 1#5) =
    some [1#32, 0x9ABCDEF0#32, 0x12345678#32, 0x80017FFF#32] := by decide
theorem test_lwst_misaligned : exception (image 0x1000 6) 0x4A692261 = some (.vectorAddress 0x1006) := by
  decide
theorem test_lwx_destination_is_index :
    (after ((image 0x1000 0).setVreg 3#5 (vec [0, 8, 4, 0xC])) 0x4A432263).map (four · 3#5) =
      some [0x80017FFF#32, 0x9ABCDEF0#32, 0x12345678#32, 1#32] := by decide
theorem test_lbux : (after ((image 0x1008 0).setVreg 3#5 (vec [0xFFFFFFF8, 0xFFFFFFFA, 0, 7]))
    0x4A432281).map (four · 1#5) = some [0x80#32, 0x7F#32, 0x9A#32, 1#32] := by decide

/-- The elements that the store rows use. -/
def storing (x4 x9 : Word) : State :=
  (vecState 4 [0x11223344, 0x55667788, 0x99AABBCC, 0xDDEEFF00] [] 0 x9).setReg 4#5 x4

theorem test_sbai : (after (storing 0x2000 4) 0x4A692101).map (fun t => (bytesAt t 0x2000 4, t.reg 4#5)) =
    some ([0x44, 0x88, 0xCC, 0], 0x2004#32) := by decide
theorem test_shai_little : (after (little (storing 0x2000 8)) 0x4A692121).map (bytesAt · 0x2000 8) =
    some [0x44, 0x33, 0x88, 0x77, 0xCC, 0xBB, 0, 0xFF] := by decide
theorem test_swst_descending :
    (after { storing 0x2004 0xFFFFFFFC with vlr := 2 } 0x4A692361).map (bytesAt · 0x2000 8) =
      some [0x55, 0x66, 0x77, 0x88, 0x11, 0x22, 0x33, 0x44] := by decide
theorem test_shx : (after ((storing 0x2000 0).setVreg 3#5 (vec [6, 4, 2, 0])) 0x4A432321).map
    (bytesAt · 0x2000 8) = some [0xFF, 0, 0xBB, 0xCC, 0x77, 0x88, 0x33, 0x44] := by decide
theorem test_swx_misaligned : exception ((storing 0x2000 0).setVreg 3#5 (vec [0xC, 0, 8, 3])) 0x4A432361 =
    some (.vectorAddress 0x2003) := by decide

/-! Memory ordering: program 3.3 of file 95 stores in place what it loaded; without the dependence, or
with it on another load, the store is a race (R74, R75, R475). -/

/-- `v[1]` set, its first element computed from an unfinished load of the word at 2000. -/
def dependent (x8 : Word) : State :=
  { (storing 0x2000 4).setWaits 1#5 1 (fun _ => [0]) with
    pending := [⟨.vector, .read, 0x2000, 4, []⟩] }.setReg 8#5 x8

theorem test_swai_after_its_load :
    (after { dependent 0 with vlr := 1 } 0x4A692161).map (·.trap) = some none := by decide
theorem test_swai_of_rewritten_element :
    faults ({ dependent 0 with vlr := 1 }.setElems 1#5 1 (fun _ => 7) noWaits) 0x4A692161 =
      some (.memoryRace 0x2000) := by decide
theorem test_lwai_twice :
    (after { dependent 0 with vlr := 1 } 0x4A692061).map (fun t => (t.waitsOf 1#5 0, t.pending.length)) =
      some ([1], 2) := by decide
theorem test_cmvltz_in_place :
    (after { dependent 0 with vlr := 1 } 0x4AA0F021).map (·.waitsOf 1#5 0) = some [0] := by decide

/-- What is not moved is not read: the destination comes from no load (R357). -/
theorem test_cmvltz_not_moved :
    (after { dependent 0 with vlr := 1 } 0x4A81F040).map (·.waitsOf 2#5 0) = some [] := by decide

/-! Vector integer arithmetic (file 96, section 2.5). -/

/-- The operands of section 2.5. -/
def ints (x9 : Word) : State :=
  vecState 4 [0x7FFFFFFF, 0x80000000, 0xFFFFFFFF, 5] [1, 0xFFFFFFFF, 1, 0xFFFFFFFD] 0 x9

theorem test_add_vv : (after (ints 3) 0x4A828061).map (fun t => (four t 3#5, t.elem 3#5 4, t.vovf)) =
    some ([0x80000000#32, 0x7FFFFFFF#32, 0#32, 2#32], 0xDEADBEEF#32, 3#32) := by decide
theorem test_add_vv_sticky : (after { ints 3 with vovf := 0x80000008 } 0x4A828061).map (·.vovf) =
    some 0x8000000B#32 := by decide
theorem test_addu_vs : (after (ints 3) 0x4AA98861).map (fun t => (four t 3#5, t.vovf)) =
    some ([0x80000002#32, 0x80000003#32, 2#32, 8#32], 0#32) := by decide
theorem test_sub_sv : (after (ints 0x80000000) 0x4AA90461).map (fun t => (four t 3#5, t.vovf)) =
    some ([1#32, 0#32, 0x80000001#32, 0x7FFFFFFB#32], 9#32) := by decide
theorem test_nor_vs : (after (ints 3) 0x4AA9B861).map (four · 3#5) =
    some [0x80000000#32, 0x7FFFFFFC#32, 0#32, 0xFFFFFFF8#32] := by decide
theorem test_sllv_sv : (after (ints 0xFFFFFFE1) 0x4AA94462).map (four · 3#5) =
    some [0xFFFFFFC2#32, 0x80000000#32, 0xFFFFFFC2#32, 0x20000000#32] := by decide
theorem test_srav_vs : (after (ints 0xFFFFFFE1) 0x4AA95861).map (four · 3#5) =
    some [0x3FFFFFFF#32, 0xC0000000#32, 0xFFFFFFFF#32, 2#32] := by decide
theorem test_srlv_vv : (after (ints 3) 0x4A824861).map (four · 3#5) =
    some [0x3FFFFFFF#32, 1#32, 0x7FFFFFFF#32, 0#32] := by decide
theorem test_or_vv_checks_vlr : exception { ints 3 with vlr := 33 } 0x4A80A800 = some .vectorOperation := by
  decide

/-! Set, flag and conditional move (file 96, section 2.6). -/

/-- The operands of the set and flag rows. -/
def flags : State :=
  { vecState 4 [0xFFFFFFFF, 5, 0x80000000, 7] [1, 5, 0x7FFFFFFF, 6] 0 5 with vcond := 0xFFFFFFF0 }

/-- The operands of the conditional moves. -/
def moves : State :=
  (vecState 4 [0xFFFFFFFF, 0, 1, 0x80000000] [0xA0, 0xA1, 0xA2, 0xA3] 0 0x55).setVreg 3#5
    (vec [0x30, 0x31, 0x32, 0x33])

theorem test_slt_sv : (after flags 0x4AA96461).map (four · 3#5) = some [0#32, 0#32, 0#32, 1#32] := by decide
theorem test_sltu_sv : (after flags 0x4AA96C61).map (four · 3#5) = some [1#32, 0#32, 1#32, 1#32] := by decide
theorem test_flt_vv : (after flags 0x4A822001).map (·.vcond) = some 0xFFFFFFF5#32 := by decide
theorem test_fltu_sv : (after flags 0x4AA92C01).map (·.vcond) = some 0xFFFFFFFD#32 := by decide
theorem test_feq_vs : (after flags 0x4AA93001).map (·.vcond) = some 0xFFFFFFF2#32 := by decide
theorem test_cmvgez_vv : (after moves 0x4A82D061).map (four · 3#5) =
    some [0x30#32, 0xA1#32, 0xA2#32, 0x33#32] := by decide
theorem test_cmvlez_vs : (after moves 0x4AA9D861).map (four · 3#5) =
    some [0x55#32, 0x55#32, 0x32#32, 0x55#32] := by decide

/-! Fixed point (file 96, section 2.7). -/

theorem test_fxadd_vv :
    (after { vecState 4 [0x7FFFFFFF, 1, 0x80000000, 2] [1, 1, 0xFFFFFFFF, 2] 0 0 with vsat := 0x80000000 }
      0x4B020061).map (fun t => (four t 3#5, t.vsat)) =
      some ([0x7FFFFFFF#32, 2#32, 0x80000000#32, 4#32], 0x80000005#32) := by decide
theorem test_fxadd_sv : (after (vecState 4 [8, 0x10, 0x18, 0xFFFFFFF0] [] 0x7E 0x84) 0x4B284C61).map
    (fun t => (four t 3#5, t.vsat)) = some ([0x7E#32, 0x7F#32, 0x7F#32, 0x7D#32], 4#32) := by decide
theorem test_fxsub_sv : (after (vecState 4 [0xA, 0x14, 0x1E, 0x28] [] 3 0) 0x4B684C61).map (four · 3#5) =
    some [0xFFFFFFF9#32, 0xFFFFFFEF#32, 0xFFFFFFE5#32, 0xFFFFFFDB#32] := by decide
theorem test_fxmul_vs : (after (vecState 4 [0x4000, 0x8000, 0x7FFF, 0xFFFF] [] 0x8000 0x10F) 0x4BA84861).map
    (fun t => (four t 3#5, t.vsat)) =
    some ([0xFFFFC000#32, 0x7FFF#32, 0xFFFF8001#32, 1#32], 2#32) := by decide
theorem test_fxadd_clip_reserved :
    refusal (vecState 0 [] [] 0 0x180) 0x4B024861 = some .clipamReserved := by decide

/-! Exceptions (file 96, section 2.8, rows 1, 2, 10, 12). -/

theorem test_add_vv_unusable : exception { State.reset with cu2 := false } 0x4A828061 =
    some (.coprocessorUnusable 2) := by decide
theorem test_reserved_word_unusable : exception { State.reset with cu2 := false } 0x4AC00000 =
    some (.coprocessorUnusable 2) := by decide
theorem test_reserved_word : exception State.reset 0x4AC00000 = some (.reservedInstruction 0x4AC00000) := by
  decide
theorem test_lwst_bus_error :
    exception { image 0x1000 4 with params := { backed := [⟨0, 4⟩, ⟨0x1000, 8⟩] } } 0x4A692261 =
      some (.busError 0x1008) := by decide
theorem test_fetch_bus_error :
    (match step { State.reset with params := { backed := [⟨0, 3⟩] } } with
      | .next t => t.trap
      | _ => none) = some ⟨.busError 0, 0, false⟩ := by decide
theorem test_cop1 : exception State.reset 0x46020800 = some (.coprocessorUnusable 1) := by decide

/-! The floating-point unit (R221 to R230). -/

/-- A machine with a floating-point unit. -/
def withFpu (s : State) : State := { s with params := { s.params with hasFpu := true } }

theorem test_mtc1 : (after (withFpu (pair 7 0)) 0x44831000).map (·.fgr 2#5) = some 7#32 := by decide
theorem test_lwc1 : (after (withFpu (image 0x1000 0)) 0xC4820004).map (·.fgr 2#5) = some 0x12345678#32 := by
  decide
theorem test_bc1t : (after (at100 { withFpu State.reset with fcr31 := 0x800000 }) 0x45010003).map (·.npc) =
    some 0x110#32 := by decide
theorem test_cfc1_of_no_register : (after (withFpu (pair 7 0)) 0x44441000).map (·.trap) = some none := by decide
theorem test_cop1_reserved : [0x44200000, 0x45E00000, 0x45040000].all (fun w =>
    exception (withFpu State.reset) w == some (.reservedInstruction (BitVec.ofNat 32 w))) = true := by decide
theorem test_mtc1_unused_bit : refusal (withFpu State.reset) 0x44831001 = some (.unusedFieldBits "mtc1") := by
  decide
theorem test_fadd_with_fpu : refusal (withFpu State.reset) 0x46020800 = some .fpuOutsideSpec := by decide

/-! The T0 pipelines (R419). -/

/-- A layout of the T0-only fields. -/
def layout : T0Layout :=
  { lufunc := #v[12, 13, 14, 15], shlza := 16, shlv := 17, au := 18, bu := 19, shrv := 20, sepsham := 21
    shram := #v[22, 23, 24, 25, 26], shrl := 27, lures := 28, noclip := 29, wcond := #v[30, 31, 5] }

/-- The operands of R419 on T0, with the configuration word in `x[9]`. -/
def t0 (a b c : Word) : State := { vecState 1 [a] [b] 0 c with params := { t0 := some layout } }

theorem test_t0_or : (after (t0 0xFF00FF00 0x0FF00FF0 0x30004000) 0x4B024861).map
    (fun t => (t.elem 3#5 0, t.vsat)) = some (0xFFF0FFF0#32, 0#32) := by decide
theorem test_t0_less_than : (after (t0 0x80000000 1 0x20000300) 0x4B424861).map
    (fun t => (t.elem 3#5 0, t.vsat)) = some (1#32, 1#32) := by decide
theorem test_t0_never_written :
    (after { dependent 0x20 with vlr := 1, params := { t0 := some layout } } 0x4B024061).map
      (·.waitsOf 3#5 0) = some [] := by decide
theorem test_t0_clipam_11 : (after (t0 0x8000 0 0x180) 0x4B024861).map (fun t => (t.elem 3#5 0, t.vsat)) =
    some (0x7FFF#32, 1#32) := by decide

/-! ### Witnesses

One theorem for each statement that has hypotheses: a concrete state and concrete operands that meet them
all, for every clause and at the ends of the ranges. -/

/-- `vlr` set after reset. -/
def withVlr (n : BitVec 8) : State := { State.reset with vlr := n }

/-- The machine in a delay slot. -/
def inSlot : State := { State.reset with slot := some ⟨0xFFFFFFFC, true⟩ }

/-- Only the eight bytes at 1000 are backed. -/
def eightBytes (s : State) : State := { s with params := { s.params with backed := [⟨0x1000, 8⟩] } }

/-- An unfinished vector access to the word at 1000. -/
def unfinished (k : AccessKind) (x4 : Word) : State :=
  { image x4 0 with pending := [⟨.vector, k, 0x1000, 4, []⟩] }

theorem ready {i : Instr} {s : State}
    (h : (s.cu2 && i.vregsExist && decide (s.vlr.toNat ≤ 32)) = true) : vecReady i s := by
  simp only [Bool.and_eq_true, decide_eq_true_eq, Instr.vregsExist, List.all_eq_true] at h
  exact ⟨⟨h.1.1, h.1.2⟩, h.2⟩

theorem access_ok {s : State} {new : List Access}
    (h : (new.all (fun x => Params.firstUnbacked s.params x.addr x.size == none) &&
      s.firstRace new == none) = true) : accessible s new := by
  simp only [Bool.and_eq_true, List.all_eq_true, beq_iff_eq] at h
  exact h

theorem quiet {s : State} {x : Access} (h : s.races x = false) : ¬racing s x := by
  rw [← races_iff, h]
  decide

theorem first_race {s : State} {kind : AccessKind} {addrs : Addrs} {size : Nat} {after : Waits} {e : Elem}
    (h : (s.params.needsSync && decide (e.val < s.vlr.toNat) &&
      decide (∀ j : Elem, j.val < s.vlr.toNat → Params.firstUnbacked s.params (addrs j) size = none)) = true)
    (r : (s.races ⟨.vector, kind, addrs e, size, after e⟩ &&
      decide (∀ j : Elem, j.val < e.val → s.races ⟨.vector, kind, addrs j, size, after j⟩ = false)) = true) :
    racesFirstAt s kind addrs size after e := by
  simp only [Bool.and_eq_true, decide_eq_true_eq] at h r
  exact ⟨h.1.1, h.1.2, h.2, (races_iff s _).mp r.1, fun j hj => quiet (r.2 j hj)⟩

theorem runs_on {i : Instr} {s : State}
    (h : (match exec i s with | .next t => t.trap.isNone | _ => false) = true) :
    ∃ t, exec i s = .next t ∧ t.trap = none := by
  split at h
  · exact ⟨_, ‹_›, by simpa using h⟩
  · cases h

theorem runs {i : Instr} {s : State}
    (h : (match exec i s with | .next t => t.trap.isNone | _ => false) = true) : ∃ t, exec i s = .next t :=
  (runs_on h).imp fun _ h => h.1

theorem wit_EncodeDecode : decode 0x00430820#32 = .instr (.add 1#5 2#5 3#5) := by decide

theorem wit_Cop2WordsAreOneInstructionOrReserved :
    opOf 0x48000000#32 = 0b010010#6 ∧ opOf 0x4BFFFFFF#32 = 0b010010#6 := by decide

theorem wit_ReservedScalarWords :
    (opOf 0x60000000#32).toNat = 24 ∧ (opOf 0xFFFFFFFF#32).toNat = 63 ∧
    (opOf 0x00000001#32 = 0#6 ∧ (functOf 0x00000001#32).toNat = 1) ∧
    (opOf 0x0000003F#32 = 0#6 ∧ (functOf 0x0000003F#32).toNat = 63) ∧
    (opOf 0x04040000#32 = 1#6 ∧ (rtOf 0x04040000#32).toNat = 4) ∧
    (opOf 0x041F0000#32 = 1#6 ∧ (rtOf 0x041F0000#32).toNat = 31) := by decide

theorem wit_ReservedVectorFormats :
    [0x4AC00000#32, 0x4AE00000, 0x4BC00000, 0x4BFFFFFF].all (fun w =>
      opOf w == 0b010010#6 && [0b10110#5, 0b10111#5, 0b11110#5, 0b11111#5].contains (rsOf w)) = true := by
  decide

theorem wit_StepKeepsInvariant :
    Inv State.reset ∧ ∃ t, step (State.reset) = .next t :=
  ⟨⟨rfl, rfl, rfl, rfl, trivial, fun k e j h => by
    simp only [State.reset, waitsOf_resetWith] at h; cases h⟩, _, rfl⟩

theorem wit_StepRunsDecodedInstruction :
    let s := State.reset.withFetchWord 32 0x00430820
    s.trap = none ∧ s.acrossTop = false ∧ s.pc.toNat % 4 = 0 ∧ Params.firstUnbacked s.params s.pc 4 = none ∧
      s.codeModified = false ∧
      decodeBytes s.params.bigEndian (s.bytes s.pc 4) = .instr (.add 1#5 2#5 3#5) := by decide

theorem wit_PlacedWordRuns : Memory.wf State.reset.mem = true := rfl

theorem wit_ExceptionsAreTerminal :
    (∃ t, step (State.reset.withFetchWord 32 0x0000000C) = .next t ∧ t.trap ≠ none) ∧
    (∃ t, step (inSlot.withFetchWord 32 0x0000000D) = .next t ∧ t.trap ≠ none) ∧
    ({ State.reset with trap := some ⟨.syscall, 0, false⟩ } : State).trap = some ⟨.syscall, 0, false⟩ :=
  ⟨⟨_, rfl, by decide⟩, ⟨_, rfl, by decide⟩, rfl⟩

theorem wit_OtherInstructionsAdvance :
    (isJump (.addu 1#5 2#5 3#5) = false ∧ isBc1 (.addu 1#5 2#5 3#5) = false ∧
      ∃ t, exec (.addu 1#5 2#5 3#5) State.reset = .next t ∧ t.trap = none) ∧
    (isJump (moveWord 4#5 1#5 2#5) = false ∧ isBc1 (moveWord 4#5 1#5 2#5) = false ∧
      ∃ t, exec (moveWord 4#5 1#5 2#5) (withFpu State.reset) = .next t ∧ t.trap = none) :=
  ⟨⟨rfl, rfl, _, rfl, rfl⟩, rfl, by decide, _, rfl, rfl⟩

theorem wit_Cop2IssueChecks :
    (usesCop2 (.addVv 31#5 0#5 0#5) ∧ usesCop2 (.lwc2 0#5 0#16 0#5) ∧ usesCop2 (.sdc2 0#5 0#16 0#5) ∧
      usesCop2 (.ctvu 1#5 3#5) ∧ ({ State.reset with cu2 := false } : State).cu2 = false) ∧
    State.reset.cu2 = true ∧ (∃ k ∈ (Instr.addVv 16#5 1#5 2#5).vregs, 16 ≤ k.toNat) ∧
      (∃ k ∈ (Instr.vinsS 1#5 31#5 2#5).vregs, 16 ≤ k.toNat) := by
  refine ⟨⟨?_, ?_, ?_, ?_, rfl⟩, by decide⟩ <;> unfold usesCop2 <;> decide

theorem wit_VectorOperationExceptions :
    (vuUsable (.vextV 1#5 2#5 3#5) (withVlr 33) ∧ readsVlr (.vextV 1#5 2#5 3#5) ∧
      32 < (withVlr 33).vlr.toNat) ∧
    (vuUsable (.fxmulSv 15#5 31#5 15#5 0#5) (withVlr 255) ∧ readsVlr (.fxmulSv 15#5 31#5 15#5 0#5) ∧
      32 < (withVlr 255).vlr.toNat) ∧
    (let s := vecState 4 [] [] 29 32;
      vecReady (.vextV 1#5 2#5 8#5) s ∧ 32 < (s.vlr.toNat + (s.reg 8#5).toNat) % 256 ∧
        32 ≤ (s.reg 9#5).toNat % 256) ∧
    vuUsable (.vinsS 1#5 15#5 9#5) (withVlr 255) ∧ vuUsable (.vextS 1#5 0#5 9#5) (withVlr 255) :=
  ⟨by unfold vuUsable readsVlr; decide, by unfold vuUsable readsVlr; decide, ⟨ready (by decide), by decide⟩,
    by unfold vuUsable; decide, by unfold vuUsable; decide⟩

theorem wit_VectorLengthBoundsEffects :
    readsVlr (.addVv 3#5 1#5 2#5) ∧ (∃ t, exec (.addVv 3#5 1#5 2#5) (withVlr 4) = .next t) ∧
      (withVlr 4).vlr.toNat ≤ (4 : Elem).val ∧
      readsVlr (.swaiV 1#5 2#5 3#5) ∧ (∃ t, exec (.swaiV 1#5 2#5 3#5) (withVlr 0) = .next t) ∧
      (withVlr 0).vlr = 0#8 :=
  ⟨by unfold readsVlr; decide, ⟨_, rfl⟩, by decide, by unfold readsVlr; decide, ⟨_, rfl⟩, rfl⟩

theorem wit_FetchOutcomes :
    State.reset.trap = none ∧
    ({ State.reset with acrossTop := true } : State).acrossTop = true ∧
    ({ State.reset with pc := 1 } : State).pc.toNat % 4 ≠ 0 ∧
    Params.firstUnbacked ({ backed := [⟨0, 3⟩] } : Params) 0 4 ≠ none ∧
    ({ State.reset with stored := [⟨3, 1⟩] } : State).codeModified = true ∧
    (let s := { State.reset.withFetchWord 32 0x4AC00000 with cu2 := false }
      let w := BitVec.ofNat 32 (unsignedAt s s.pc 4)
      s.codeModified = false ∧ decode w = .reserved ∧ opOf w = 18#6 ∧ s.cu2 = false) ∧
    (let s := State.reset.withFetchWord 32 0x4AC00000
      let w := BitVec.ofNat 32 (unsignedAt s s.pc 4)
      decode w = .reserved ∧ s.cu2 = true) ∧
    (let s := State.reset.withFetchWord 32 0x60000000
      let w := BitVec.ofNat 32 (unsignedAt s s.pc 4)
      decode w = .reserved ∧ opOf w ≠ 18#6) ∧
    (let s := State.reset.withFetchWord 32 0x00430860
      let w := BitVec.ofNat 32 (unsignedAt s s.pc 4)
      decode w = .unusedBits "add") := by decide

theorem wit_VsatAndVlrWriters :
    (∃ t, exec (.addu 1#5 2#5 3#5) State.reset = .next t) ∧ setsVsat (.addu 1#5 2#5 3#5) = false ∧
    (∃ t, exec (.fxaddVv 1#5 2#5 3#5 0#5) { withVlr 4 with vsat := 0x80000001 } = .next t) ∧
    ({ withVlr 4 with vsat := 0x80000001 } : State).vsat.getLsbD 31 = true := by
  exact ⟨⟨_, rfl⟩, rfl, ⟨_, rfl⟩, by decide⟩

theorem wit_RegisterResults :
    ∃ f, (Instr.srav, f) ∈ threeRegister := ⟨_, List.mem_of_getElem? (i := 10) rfl⟩

theorem wit_TrappingArithmetic :
    let v := fun r => ((pair 0x7FFFFFFF 0x80000000).reg r).toInt
    fits (v 3#5 + v 0#5) ∧ ¬fits (v 3#5 + v 3#5) ∧ fits (v 4#5 - v 0#5) ∧ ¬fits (v 3#5 - v 4#5) ∧
      fits (v 4#5 + (0x7FFF#16).toInt) ∧ ¬fits (v 4#5 + (0xFFFF#16).toInt) ∧ ¬fits (v 3#5 + (1#16).toInt) := by
  decide

theorem wit_ImmediateResults : ∃ f, (Instr.xori, f) ∈ immediates := ⟨_, List.mem_of_getElem? (i := 5) rfl⟩

theorem wit_ProductsAndQuotients :
    let v := (pair 0x80000000 0xFFFFFFFE).reg
    v 4#5 ≠ 0#32 ∧ ¬(v 3#5 = 0x80000000#32 ∧ v 4#5 = 0xFFFFFFFF#32) := by decide

theorem wit_HiLoMoves : State.reset.loFromMul = false ∧ State.reset.hiFromMul = false := ⟨rfl, rfl⟩

theorem wit_ScalarLoadResults :
    let s := image 0xFFFFFFFC 0
    let a := s.effAddr 4#5 0#16
    (Instr.lw, 4, true) ∈ scalarLoads ∧ a.toNat % 4 = 0 ∧ accessible s (scalarAccess .read a 4) :=
  ⟨by simp [scalarLoads], by decide, access_ok (by decide)⟩

theorem wit_ScalarStoreResults :
    let s := image 0xFFFFFFFC 0
    let a := s.effAddr 4#5 0#16
    (Instr.sw, 4) ∈ scalarStores ∧ Memory.wf s.mem = true ∧ a.toNat % 4 = 0 ∧
      accessible s (scalarAccess .write a 4) :=
  ⟨by simp [scalarStores], by decide, by decide, access_ok (by decide)⟩

theorem wit_PartialLoadResults :
    let s := image 0x1003 0
    let a := s.effAddr 4#5 0#16
    accessible s (scalarAccess .read (a - BitVec.ofNat 32 (a.toNat % 4)) 4) := access_ok (by decide)

theorem wit_PartialStoreResults :
    let s := image 0x1003 0
    let a := s.effAddr 4#5 0#16
    Memory.wf s.mem = true ∧
      accessible s (scalarAccess .write (partialStart true a) (partialCount true a)) ∧
      accessible s (scalarAccess .write (partialStart false a) (partialCount false a)) :=
  ⟨by decide, access_ok (by decide), access_ok (by decide)⟩

theorem wit_LoadLinkedResult :
    let s := image 0x1004 0
    let a := s.effAddr 4#5 0xFFFC#16
    a.toNat % 4 = 0 ∧ accessible s (scalarAccess .read a 4) := ⟨by decide, access_ok (by decide)⟩

theorem wit_StoreConditionalResult :
    let s := { image 0x1004 0 with llBit := true, llClean := true, llAddr := 0x1004 }
    let a := s.effAddr 4#5 0#16
    Memory.wf s.mem = true ∧ a.toNat % 4 = 0 ∧ accessible s (scalarAccess .write a 4) ∧
      (s.llBit = true ∧ s.llClean = true ∧ s.llAddr = a) :=
  ⟨by decide, by decide, access_ok (by decide), by decide⟩

theorem wit_SyncResult : ∀ x ∈ scalarAccess .read 0xFFFFFFFC#32 4,
    Params.firstUnbacked State.reset.params x.addr x.size = none := by decide

theorem wit_ScalarAddressErrors :
    ((image 0x1001 0).effAddr 4#5 0#16).toNat % 2 ≠ 0 ∧ ((image 0x1002 0).effAddr 4#5 0#16).toNat % 4 ≠ 0 := by
  decide

theorem wit_ScalarBusErrors :
    let s := eightBytes (image 0x1008 0)
    let a := s.effAddr 4#5 0#16
    (∀ m ∈ scalarMemory, a.toNat % m.align = 0 ∧
      Params.firstUnbacked s.params (m.access s a).addr (m.access s a).size = some a) ∧
    (let t := { s with llBit := true, llClean := true, llAddr := 0x1008 }
     a.toNat % 4 = 0 ∧ Params.firstUnbacked s.params a 4 = some a ∧ storesForSure t a) :=
  ⟨by decide, by decide, by decide, by unfold storesForSure; decide⟩

theorem wit_UnsynchronisedConflictsFault :
    (let s := unfinished .write 0x1000
     let a := s.effAddr 4#5 0#16
     s.params.needsSync = true ∧ ∀ m ∈ scalarMemory, a.toNat % m.align = 0 ∧
       Params.firstUnbacked s.params (m.access s a).addr (m.access s a).size = none ∧
       racing s (m.access s a)) ∧
    (let s := { unfinished .read 0x1000 with llBit := true, llClean := true, llAddr := 0x1000 }
     let a := s.effAddr 4#5 0#16
     a.toNat % 4 = 0 ∧ Params.firstUnbacked s.params a 4 = none ∧ storesForSure s a ∧
       racing s ⟨.scalar, .write, a, 4, []⟩) := by
  refine ⟨⟨rfl, ?_⟩, by decide, by decide, by unfold storesForSure; decide, 0, _, rfl, ?_⟩
  · simp only [scalarMemory, List.forall_mem_cons]
    refine ⟨?_, ?_, ?_, ?_, ?_, ?_, ?_, ?_, ?_, ?_, ?_, ?_, ?_, by simp⟩ <;>
      exact ⟨by decide, by decide, 0, _, rfl, by decide⟩
  · decide

theorem wit_JumpResults : State.reset.slot = none ∧ (31#5 : Reg) ≠ 0#5 := by decide

theorem wit_BranchResults :
    State.reset.slot = none ∧ (∃ c p, (c, p, true) ∈ branches) ∧ (30#5 : Reg) ≠ 31#5 ∧
      (∃ p, (Instr.beq, p, false) ∈ branches) :=
  ⟨rfl, ⟨_, _, List.mem_of_getElem? (i := 7) rfl⟩, by decide, ⟨_, List.mem_of_getElem? (i := 0) rfl⟩⟩

theorem wit_LikelyBranchResults :
    State.reset.slot = none ∧ (∃ c p, (c, p, true) ∈ likelyBranches) ∧ (30#5 : Reg) ≠ 31#5 ∧
      (∃ p, (Instr.beql, p, false) ∈ likelyBranches) :=
  ⟨rfl, ⟨_, _, List.mem_of_getElem? (i := 7) rfl⟩, by decide, ⟨_, List.mem_of_getElem? (i := 0) rfl⟩⟩

theorem wit_UndefinedJumpsAreRefused :
    isJump (.jr 31#5) = true ∧ inSlot.slot ≠ none ∧ State.reset.slot = none := by decide

theorem wit_TrapInstructions :
    (∃ p, (Instr.tge, p) ∈ registerTraps) ∧ (∃ p, (Instr.tnei, p) ∈ immediateTraps) :=
  ⟨⟨_, List.mem_of_getElem? (i := 0) rfl⟩, ⟨_, List.mem_of_getElem? (i := 5) rfl⟩⟩

theorem wit_UnusableCoprocessors : State.reset.params.hasFpu = false ∧ State.reset.cu2 = true := ⟨rfl, rfl⟩

theorem wit_CoprocessorOneMoves :
    (withFpu State.reset).params.hasFpu = true ∧ (withFpu State.reset).slot = none ∧
    (withFpu inSlot).slot ≠ none ∧ (30#5 : Reg) ≠ 31#5 ∧
    ((0x00C00001#26).toNat / 2 ^ 21 = 6 ∧ (0x00C00001#26).toNat % 2 ^ 11 ≠ 0) ∧
    (0x1E00000#26).toNat / 2 ^ 21 = 15 ∧
    ((0x1040000#26).toNat / 2 ^ 21 = 8 ∧ 4 ≤ (0x1040000#26).toNat / 2 ^ 16 % 32) ∧
    16 ≤ (0x2000000#26).toNat / 2 ^ 21 := by decide

/-- At the top of memory, where the unbacked and the racing forms have their own states. -/
theorem wit_CoprocessorOneMemory :
    (let s := withFpu (image 0xFFFFFFF8 0)
     let a := s.effAddr 4#5 0#16
     s.params.hasFpu = true ∧ Memory.wf s.mem = true ∧ a.toNat % 8 = 0 ∧ (30#5).toNat % 2 = 0 ∧
       (31#5).toNat % 2 ≠ 0 ∧
       ∀ kind, accessible s [⟨.scalar, kind, a, 4, []⟩] ∧
         accessible s [⟨.scalar, kind, a, 4, []⟩, ⟨.scalar, kind, a + 4#32, 4, []⟩]) ∧
    ((withFpu (image 0x1004 0)).effAddr 4#5 0#16).toNat % 8 ≠ 0 ∧
    (let s := withFpu { eightBytes (image 0x1008 0) with pending := [] }
     Params.firstUnbacked s.params (s.effAddr 4#5 0#16) 8 = some 0x1008#32) ∧
    (let s := withFpu (unfinished .write 0x1000)
     let a := s.effAddr 4#5 0#16
     s.params.needsSync = true ∧ Params.firstUnbacked s.params a 8 = none ∧
       racing s ⟨.scalar, .read, a, 4, []⟩) :=
  ⟨⟨rfl, by decide, by decide, by decide, by decide, fun kind => by cases kind <;> exact
    ⟨access_ok (by decide), access_ok (by decide)⟩⟩, by decide, by decide, rfl, by decide, 0, _, rfl, by decide⟩

theorem wit_ControlRegisterReads : State.reset.cu2 = true := rfl

theorem wit_ControlRegisterWrites : State.reset.cu2 = true := rfl

theorem wit_UnpredictableOperandsAreRefused :
    (State.reset.cu2 = true ∧ (31#5).toNat ∉ [0, 1, 2, 4, 8, 12] ∧ (3#5).toNat ∉ [0, 1, 2, 4, 8, 12]) ∧
    (Instr.lbaiV ∈ unitLoads.map (·.1) ∧ vecReady (.lbaiV 0#5 0#5 0#5) (withVlr 32)) ∧
    (let s := vecState 0 [] [] 0x1000 0x180;
      vecReady (.fxaddVv 1#5 2#5 3#5 8#5) s ∧ s.params.t0 = none ∧ (s.reg 8#5).toNat / 2 ^ 12 ≠ 0 ∧
        (s.reg 9#5).toNat / 2 ^ 12 = 0 ∧ (s.reg 9#5).toNat / 32 % 4 = 0 ∧ (s.reg 9#5).toNat / 128 % 4 = 3) ∧
    (let s := vecState 32 [] [] 255 224;
      vecReady (.vextV 1#5 2#5 8#5) s ∧ (s.vlr.toNat + (s.reg 8#5).toNat % 256) % 256 ≤ 32 ∧
        32 < s.vlr.toNat + (s.reg 8#5).toNat % 256) :=
  ⟨by decide, ⟨by simp [unitLoads], ready (by decide)⟩, ⟨ready (by decide), by decide⟩,
    ready (by decide), by decide⟩

theorem wit_InsertExtractResults :
    (let s := vecState 4 [] [] 28 31;
      vecReady (.vextV 1#5 2#5 8#5) s ∧ s.vlr.toNat + (s.reg 8#5).toNat % 256 ≤ 32 ∧
        (31 : Elem).val = (s.reg 9#5).toNat % 256) ∧
    (∀ e : Elem, e.val < 4 → (31 : Elem).val = 28 + e.val → e = 3) ∧
    vuUsable (.vinsS 1#5 15#5 9#5) (withVlr 255) ∧ vuUsable (.vextS 1#5 0#5 9#5) (withVlr 255) :=
  ⟨⟨ready (by decide), by decide⟩, by decide, by unfold vuUsable; decide, by unfold vuUsable; decide⟩

theorem wit_UnitStrideLoads :
    let s := image 0xFFFFFFFC 4
    (Instr.lwaiV, 4, true) ∈ unitLoads ∧ vecReady (.lwaiV 1#5 4#5 9#5) s ∧ (4#5 : Reg) ≠ 9#5 ∧
      (s.reg 4#5).toNat % 4 = 0 ∧
      accessible s (vecAccesses .read (s.unitAddrs 4#5 4) 4 s.vlr.toNat noWaits) :=
  ⟨by simp [unitLoads], ready (by decide), by decide, by decide, access_ok (by decide)⟩

theorem wit_AddressedLoads :
    let s := image 0x100C 0xFFFFFFFC
    (Instr.lwstV, .strided, 4, true) ∈ addressedLoads ∧ (Instr.lbxV, .indexed, 1, true) ∈ addressedLoads ∧
      vecReady (.lwstV 1#5 4#5 9#5) s ∧ aligned s (AddrForm.strided.addrs s 4#5 9#5) 4 ∧
      accessible s (vecAccesses .read (AddrForm.strided.addrs s 4#5 9#5) 4 s.vlr.toNat
        (AddrForm.strided.waits s 9#5)) ∧
      vecReady (.lbxV 1#5 4#5 3#5) s ∧ aligned s (AddrForm.indexed.addrs s 4#5 3#5) 1 ∧
      accessible s (vecAccesses .read (AddrForm.indexed.addrs s 4#5 3#5) 1 s.vlr.toNat
        (AddrForm.indexed.waits s 3#5)) :=
  ⟨by simp [addressedLoads], by simp [addressedLoads], ready (by decide), by unfold aligned; decide,
    access_ok (by decide), ready (by decide), by unfold aligned; decide, access_ok (by decide)⟩

theorem wit_UnitStrideStores :
    let s := storing 0x2000 8
    (Instr.shaiV, 2) ∈ unitStores ∧ Memory.wf s.mem = true ∧ vecReady (.shaiV 1#5 4#5 9#5) s ∧
      (4#5 : Reg) ≠ 9#5 ∧ (s.reg 4#5).toNat % 2 = 0 ∧
      accessible s (vecAccesses .write (s.unitAddrs 4#5 2) 2 s.vlr.toNat (s.waitsOf 1#5)) :=
  ⟨by simp [unitStores], by decide, ready (by decide), by decide, by decide, access_ok (by decide)⟩

/-- Among them a store whose four elements share one address. -/
theorem wit_AddressedStores :
    let s := storing 0x2000 0
    (Instr.swstV, .strided, 4) ∈ addressedStores ∧ (Instr.sbxV, .indexed, 1) ∈ addressedStores ∧
      Memory.wf s.mem = true ∧ vecReady (.swstV 1#5 4#5 0#5) s ∧
      aligned s (AddrForm.strided.addrs s 4#5 0#5) 4 ∧
      accessible s (vecAccesses .write (AddrForm.strided.addrs s 4#5 0#5) 4 s.vlr.toNat fun e =>
        s.waitsOf 1#5 e ++ AddrForm.strided.waits s 0#5 e) ∧
      vecReady (.sbxV 1#5 4#5 3#5) s ∧ aligned s (AddrForm.indexed.addrs s 4#5 3#5) 1 ∧
      accessible s (vecAccesses .write (AddrForm.indexed.addrs s 4#5 3#5) 1 s.vlr.toNat fun e =>
        s.waitsOf 1#5 e ++ AddrForm.indexed.waits s 3#5 e) :=
  ⟨by simp [addressedStores], by simp [addressedStores], by decide, ready (by decide),
    by unfold aligned; decide, access_ok (by decide), ready (by decide), by unfold aligned; decide,
    access_ok (by decide)⟩

theorem wit_VectorAddressExceptions :
    (let s := { image 0x1001 0 with vlr := 0 };
      (Instr.lhaiV, 2) ∈ unitLoads.map (fun r => (r.1, r.2.1)) ∧ vecReady (.lhaiV 1#5 4#5 9#5) s ∧
        (4#5 : Reg) ≠ 9#5 ∧ (s.reg 4#5).toNat % 2 ≠ 0) ∧
    (let s := image 0x1000 6;
      (Instr.lwstV, AddrForm.strided, 4) ∈ addressedLoads.map (fun r => (r.1, r.2.1, r.2.2.1)) ∧
        vecReady (.lwstV 1#5 4#5 9#5) s ∧ (1 : Elem).val < s.vlr.toNat ∧
        (AddrForm.strided.addrs s 4#5 9#5 1).toNat % 4 ≠ 0 ∧
        ∀ j : Elem, j.val < (1 : Elem).val → (AddrForm.strided.addrs s 4#5 9#5 j).toNat % 4 = 0) ∧
    (let s := (storing 0x2000 0).setVreg 3#5 (vec [0xC, 0, 8, 3]);
      (Instr.swxV, AddrForm.indexed, 4) ∈ addressedStores ∧ vecReady (.swxV 1#5 4#5 3#5) s ∧
        (3 : Elem).val < s.vlr.toNat ∧ (AddrForm.indexed.addrs s 4#5 3#5 3).toNat % 4 ≠ 0 ∧
        ∀ j : Elem, j.val < (3 : Elem).val → (AddrForm.indexed.addrs s 4#5 3#5 j).toNat % 4 = 0) :=
  ⟨⟨by simp [unitLoads], ready (by decide), by decide, by decide⟩,
    ⟨by simp [addressedLoads], ready (by decide), by decide, by decide, by decide⟩,
    ⟨by simp [addressedStores], ready (by decide), by decide, by decide, by decide⟩⟩

theorem wit_VectorBusErrors :
    (let s := eightBytes (image 0x1000 0);
      (Instr.lwaiV, 4) ∈ unitLoads.map (fun r => (r.1, r.2.1)) ∧ vecReady (.lwaiV 1#5 4#5 9#5) s ∧
        (4#5 : Reg) ≠ 9#5 ∧ (s.reg 4#5).toNat % 4 = 0 ∧ (2 : Elem).val < s.vlr.toNat ∧
        Params.firstUnbacked s.params (s.unitAddrs 4#5 4 2) 4 = some 0x1008#32 ∧
        ∀ j : Elem, j.val < (2 : Elem).val →
          Params.firstUnbacked s.params (s.unitAddrs 4#5 4 j) 4 = none) ∧
    (let s := eightBytes (storing 0x1008 4);
      (Instr.swstV, AddrForm.strided, 4) ∈ addressedStores ∧ vecReady (.swstV 1#5 4#5 9#5) s ∧
        aligned s (AddrForm.strided.addrs s 4#5 9#5) 4 ∧ (0 : Elem).val < s.vlr.toNat ∧
        Params.firstUnbacked s.params (AddrForm.strided.addrs s 4#5 9#5 0) 4 = some 0x1008#32 ∧
        ∀ j : Elem, j.val < (0 : Elem).val →
          Params.firstUnbacked s.params (AddrForm.strided.addrs s 4#5 9#5 j) 4 = none) :=
  ⟨⟨by simp [unitLoads], ready (by decide), by decide, by decide, by decide, by decide, by decide⟩,
    ⟨by simp [addressedStores], ready (by decide), by unfold aligned; decide, by decide, by decide, by decide⟩⟩

/-- The first clause at a load that does not race; the others at the last element, where a unit load meets
an unfinished store and a unit store an unfinished load that its value does not come from, and at the
first, where an indexed load and an indexed store do. -/
theorem wit_VectorConflictsFault :
    (let s := unfinished .read 0x1000
     let x : Access := ⟨.vector, .read, 0x1000, 4, []⟩
     Params.firstUnbacked s.params x.addr x.size = none ∧ s.params.needsSync = true ∧ ¬racing s x) ∧
    (let s := unfinished .write 0xFF4
     vecReady (.lwaiV 1#5 4#5 9#5) s ∧ (4#5 : Reg) ≠ 9#5 ∧ (s.reg 4#5).toNat % 4 = 0 ∧
       racesFirstAt s .read (s.unitAddrs 4#5 4) 4 noWaits 3) ∧
    (let s := { dependent 0 with vlr := 4 }.setReg 4#5 0x1FF4
     vecReady (.swaiV 1#5 4#5 9#5) s ∧ (s.reg 4#5).toNat % 4 = 0 ∧
       racesFirstAt s .write (s.unitAddrs 4#5 4) 4 (s.waitsOf 1#5) 3) ∧
    (let s := unfinished .write 0x1000
     vecReady (.lbxV 1#5 4#5 0#5) s ∧ aligned s (AddrForm.indexed.addrs s 4#5 0#5) 1 ∧
       racesFirstAt s .read (AddrForm.indexed.addrs s 4#5 0#5) 1 (AddrForm.indexed.waits s 0#5) 0) ∧
    (let s := unfinished .read 0x1000
     vecReady (.sbxV 1#5 4#5 0#5) s ∧ aligned s (AddrForm.indexed.addrs s 4#5 0#5) 1 ∧
       racesFirstAt s .write (AddrForm.indexed.addrs s 4#5 0#5) 1
         (fun j => s.waitsOf 1#5 j ++ AddrForm.indexed.waits s 0#5 j) 0) :=
  ⟨⟨by decide, rfl, quiet (by decide)⟩,
    ⟨ready (by decide), by decide, by decide, first_race (by decide) (by decide)⟩,
    ⟨ready (by decide), by decide, first_race (by decide) (by decide)⟩,
    ⟨ready (by decide), by unfold aligned; decide, first_race (by decide) (by decide)⟩,
    ⟨ready (by decide), by unfold aligned; decide, first_race (by decide) (by decide)⟩⟩

theorem wit_RegisterDependences :
    (vecReady (.andVv 3#5 1#5 2#5) (dependent 0) ∧ (∃ t, exec (.andVv 3#5 1#5 2#5) (dependent 0) = .next t)) ∧
    (vecReady (.cmvltzVs 3#5 1#5 9#5) (dependent 0) ∧
      ∃ t, exec (.cmvltzVs 3#5 1#5 9#5) (dependent 0) = .next t) ∧
    (vecReady (.fxaddVv 3#5 1#5 2#5 8#5) (dependent 0xF1F) ∧
      ∃ t, exec (.fxaddVv 3#5 1#5 2#5 8#5) (dependent 0xF1F) = .next t) ∧
    (let s := { dependent 0x40000000 with params := { t0 := some layout } }
     vecReady (.fxaddVv 3#5 1#5 2#5 8#5) s ∧ s.params.t0 = some layout ∧
       ∃ t, exec (.fxaddVv 3#5 1#5 2#5 8#5) s = .next t) ∧
    (∃ t, exec (.lwaiV 3#5 4#5 9#5) (dependent 0) = .next t ∧ t.trap = none) ∧
    (∃ t, exec (.lbxV 3#5 4#5 1#5) (dependent 0) = .next t ∧ t.trap = none) ∧
    (∃ t, exec (.vextV 3#5 1#5 8#5) (dependent 28) = .next t ∧ t.trap = none) ∧
    (∃ t, exec (.vinsS 9#5 1#5 8#5) (dependent 0) = .next t ∧ t.trap = none) :=
  ⟨⟨ready (by decide), runs (by decide)⟩, ⟨ready (by decide), runs (by decide)⟩,
    ⟨ready (by decide), runs (by decide)⟩, ⟨ready (by decide), rfl, runs (by decide)⟩, runs_on (by decide),
    runs_on (by decide), runs_on (by decide), runs_on (by decide)⟩

theorem wit_VectorResults :
    (∃ g, (Instr.srlvSv, .sv, g) ∈ vectorResults) ∧ vecReady (.srlvSv 15#5 31#5 0#5) (withVlr 32) ∧
      vecReady (.srlvSv 0#5 31#5 15#5) (withVlr 0) :=
  ⟨⟨_, List.mem_of_getElem? (i := 18) rfl⟩, ready (by decide), ready (by decide)⟩

theorem wit_OverflowRegister :
    (∃ g, (Instr.addVv, .vv, g) ∈ overflowing) ∧ vecReady (.addVv 3#5 1#5 2#5) (ints 3) ∧
      ((ints 3).elem 1#5 0).toInt + ((ints 3).elem 2#5 0).toInt = 2 ^ 31 ∧
      State.reset.cu2 = true ∧
      (∃ t, exec (.ctvu 1#5 4#5) State.reset = .next t) ∧ setsVovf (.ctvu 1#5 4#5) = false ∧
      ∀ rt : Reg, Instr.ctvu 1#5 4#5 ≠ .ctvu rt 8#5 :=
  ⟨⟨_, List.mem_of_getElem? (i := 0) rfl⟩, ready (by decide), by decide, rfl, ⟨_, rfl⟩, rfl, by simp⟩

theorem wit_ConditionRegister :
    (∃ p, (Instr.feqVs, .vs, p) ∈ flagging) ∧ vecReady (.feqVs 1#5 9#5) flags ∧ State.reset.cu2 = true ∧
      (∃ t, exec (.ctvu 1#5 8#5) State.reset = .next t) ∧ setsVcond (.ctvu 1#5 8#5) = false ∧
      ∀ rt : Reg, Instr.ctvu 1#5 8#5 ≠ .ctvu rt 4#5 :=
  ⟨⟨_, List.mem_of_getElem? (i := 7) rfl⟩, ready (by decide), rfl, ⟨_, rfl⟩, rfl, by simp⟩

theorem wit_ConditionalMoves :
    (∃ p, (Instr.cmvgtzVs, .vs, p) ∈ moving) ∧ vecReady (.cmvgtzVs 3#5 1#5 9#5) moves :=
  ⟨⟨_, List.mem_of_getElem? (i := 11) rfl⟩, ready (by decide)⟩

theorem wit_FixedPointResults :
    let s := vecState 32 [] [] 0x80 0xF1F
    (Instr.fxmulSv, .sv, .mul) ∈ fixed ∧ vecReady (.fxmulSv 3#5 8#5 1#5 9#5) s ∧ s.params.t0 = none ∧
      fxValid (s.reg 9#5) :=
  ⟨by simp [fixed], ready (by decide), rfl, by unfold fxValid; decide⟩

theorem wit_T0ReducesToArchitecture :
    let s := { vecState 32 [] [] 0x80 0xF1F with params := { t0 := some layout } }
    (Instr.fxmulSv, .sv, .mul) ∈ fixed ∧ vecReady (.fxmulSv 3#5 8#5 1#5 9#5) s ∧
      s.params.t0 = some layout ∧ layoutValid layout = true ∧ fxValid (s.reg 9#5) :=
  ⟨by simp [fixed], ready (by decide), rfl, by decide, by unfold fxValid; decide⟩

theorem wit_T0PipelineResults :
    let s := fun c => { vecState 32 [] [] 0x80 c with params := { t0 := some layout } }
    (Instr.fxaddSv, .sv, .add) ∈ fixed ∧ (Instr.fxmulSv, .sv, .mul) ∈ fixed ∧
    layoutValid layout = true ∧
    (∀ c, vecReady (.fxaddSv 3#5 8#5 1#5 9#5) (s c) ∧ vecReady (.fxmulSv 3#5 8#5 1#5 9#5) (s c) ∧
      (s c).params.t0 = some layout) ∧
    (¬strayBit layout 0xFFFFFFBF ∧ mulStops layout 0xFFFFFFBF) ∧
    (¬strayBit layout 0xEFF8F1A0 ∧ mulStops layout 0x10000000) ∧
    (¬strayBit layout 0xE82CF9AF ∧ ¬mulStops layout 0xE82CF9AF) ∧ strayBit layout 0x40#32 :=
  ⟨by simp [fixed], by simp [fixed], by decide, fun c => ⟨ready rfl, ready rfl, rfl⟩,
    by unfold strayBit mulStops; decide, by unfold strayBit mulStops; decide,
    by unfold strayBit mulStops; decide, by unfold strayBit; decide⟩

end Sys2Proof.Tests
end

/-! SUPPORT. The statements of the scope family: what every step keeps (R11, R20, R22, R25, R44, R48, R60),
the issue checks of coprocessor 2 (R106, R433), and the bound that vlr sets (R15, R27, R34). -/

namespace Sys2Proof.Scope

open Sys2Proof.Machine Sys2Proof.Safety Sys2Proof.Claims

/-! ### Taking an exception changes the recorded outcome alone -/

section
variable (s : State) (e : Exception)

@[simp] theorem withTrap_params : (withTrap s e).params = s.params := by rw [withTrap_eq]
@[simp] theorem withTrap_cu2 : (withTrap s e).cu2 = s.cu2 := by rw [withTrap_eq]
@[simp] theorem withTrap_pc : (withTrap s e).pc = s.pc := by rw [withTrap_eq]
@[simp] theorem withTrap_npc : (withTrap s e).npc = s.npc := by rw [withTrap_eq]
@[simp] theorem withTrap_slot : (withTrap s e).slot = s.slot := by rw [withTrap_eq]
@[simp] theorem withTrap_regs : (withTrap s e).regs = s.regs := by rw [withTrap_eq]
@[simp] theorem withTrap_vregs : (withTrap s e).vregs = s.vregs := by rw [withTrap_eq]
@[simp] theorem withTrap_waits : (withTrap s e).waits = s.waits := by rw [withTrap_eq]
@[simp] theorem withTrap_vcond : (withTrap s e).vcond = s.vcond := by rw [withTrap_eq]
@[simp] theorem withTrap_vovf : (withTrap s e).vovf = s.vovf := by rw [withTrap_eq]
@[simp] theorem withTrap_vsat : (withTrap s e).vsat = s.vsat := by rw [withTrap_eq]
@[simp] theorem withTrap_mem : (withTrap s e).mem = s.mem := by rw [withTrap_eq]
@[simp] theorem withTrap_pending : (withTrap s e).pending = s.pending := by rw [withTrap_eq]

/-- The outcome recorded names the instruction at `pc`, or the branch before it (R441). -/
theorem trapConsistent_withTrap (h : pcConsistent s) : trapConsistent (withTrap s e) := by
  unfold pcConsistent at h
  unfold trapConsistent withTrap
  cases hs : s.slot with
  | none => simp
  | some b =>
    rw [hs] at h
    simpa using h.1

end

/-! ### The elements from `n` on -/

section
variable (s : State)

/-- A vector register write of `n` elements leaves the elements from `n` on alone (R27). -/
theorem elem_setElemsWhere_beyond (k q : VReg) {n : Nat} (w : Elem → Bool) (f : Elem → Word) (d : Waits)
    {e : Elem} (h : n ≤ e.val) : (s.setElemsWhere k n w f d).elem q e = s.elem q e := by
  by_cases hq : q ≠ k ∨ q = 0#5
  · exact elem_setElemsWhere_keeps s k q n w f d e hq
  · obtain ⟨rfl, h0⟩ : q = k ∧ q ≠ 0#5 := by simpa using hq
    by_cases hk : q.toNat < Config.nvreg
    · rw [elem_setElemsWhere_same s q n w f d e h0 hk, if_neg (by omega)]
    · rw [setElemsWhere_absent s q n w f d (by omega)]

theorem elem_setElems_beyond (k q : VReg) {n : Nat} (f : Elem → Word) (d : Waits) {e : Elem}
    (h : n ≤ e.val) : (s.setElems k n f d).elem q e = s.elem q e :=
  elem_setElemsWhere_beyond s k q _ f d h

theorem getLsbD_flagMask_beyond {n i : Nat} (p : Elem → Bool) (h : n ≤ i) :
    (flagMask n p).getLsbD i = false := by
  by_cases hi : i < 32
  · have hm := getElem_flagMask n p ⟨i, hi⟩
    rw [← BitVec.getLsbD_eq_getElem] at hm
    simp [hm, h]
  · exact BitVec.getLsbD_of_ge _ _ (by omega)

/-- Sticky flags keep the bits from `n` on (R39, R41). -/
theorem getLsbD_sticky_beyond (old : Word) {n i : Nat} (p : Elem → Bool) (h : n ≤ i) :
    (sticky old n p).getLsbD i = old.getLsbD i := by
  simp [sticky, getLsbD_flagMask_beyond p h]

/-- Result flags keep the bits from `n` on (R37). -/
theorem getLsbD_replaceFlags_beyond (old : Word) {n i : Nat} (p : Elem → Bool) (h : n ≤ i) :
    (replaceFlags old n p).getLsbD i = old.getLsbD i := by
  rw [replaceFlags, BitVec.getLsbD_or, BitVec.getLsbD_and, BitVec.getLsbD_not,
    getLsbD_flagMask_beyond p h, getLsbD_flagMask_beyond _ h]
  by_cases hi : i < 32
  · simp [hi]
  · simp [BitVec.getLsbD_of_ge old i (by omega)]

/-- The numbers below `n` among `0 .. m-1` are the first `n`. -/
theorem filter_finRange_lt (m n : Nat) :
    (List.finRange m).filter (fun i => decide (i.val < n)) = (List.finRange m).take n := by
  induction m generalizing n with
  | zero => simp
  | succ m ih =>
    cases n with
    | zero => simp
    | succ n => simp [List.finRange_succ, List.filter_map, Function.comp_def, ih]

theorem elems_eq_take (n : Nat) : elems n = (List.finRange Config.mvl).take n :=
  filter_finRange_lt Config.mvl n

theorem getElem?_elems {n : Nat} {e : Elem} (h : e.val < n) : (elems n)[e.val]? = some e := by
  simp [elems_eq_take, h]

/-- A vector store of no elements stores nothing. -/
@[simp] theorem storeElems_none (addrs : Addrs) (size : Nat) (f : Elem → Word) :
    s.storeElems addrs size 0 f = s := by
  simp [State.storeElems, elems_eq_take]

end

/-! ### The loads that elements wait for -/

/-- Number `j` of the accesses since the last SYNC is a vector load (R48, R74). -/
def UnfinishedLoad (s : State) (j : Nat) : Prop :=
  ∃ x, s.pending[j]? = some x ∧ x.agent = .vector ∧ x.kind = .read

/-- Some vector register element waits for load number `j` (R75). -/
def Awaited (s : State) (j : Nat) : Prop := ∃ k e, j ∈ s.waitsOf k e

theorem waitsConsistent_iff {s : State} :
    waitsConsistent s ↔ ∀ j, Awaited s j → UnfinishedLoad s j :=
  ⟨fun h j ⟨k, e, hj⟩ => h k e j hj, fun h k e j hj => h j ⟨k, e, hj⟩⟩

/-- Every load in `d` is one that an element of `s` waits for. -/
def Derived (s : State) (d : Waits) : Prop := ∀ e, ∀ j ∈ d e, Awaited s j

/-- The loads of both operands are ones that elements of `s` wait for. -/
def DerivedPairs (s : State) (ab : Pairs) : Prop := Derived s ab.waitsA ∧ Derived s ab.waitsB

section
variable {s : State}

theorem derived_noWaits : Derived s noWaits := fun _ _ h => absurd h (by simp [noWaits])

theorem derived_waitsOf (k : VReg) : Derived s (s.waitsOf k) := fun e _ h => ⟨k, e, h⟩

theorem derived_waitsAt (k : VReg) (g : Elem → Nat) : Derived s fun e => s.waitsAt k (g e) := by
  intro e j h
  dsimp only [State.waitsAt] at h
  split at h
  · exact ⟨k, _, h⟩
  · simp at h

theorem derived_vv (vd vt : VReg) : DerivedPairs s (s.vv vd vt) := ⟨derived_waitsOf vd, derived_waitsOf vt⟩
theorem derived_vs (vd : VReg) (rt : Reg) : DerivedPairs s (s.vs vd rt) :=
  ⟨derived_waitsOf vd, derived_noWaits⟩
theorem derived_sv (rt : Reg) (vd : VReg) : DerivedPairs s (s.sv rt vd) :=
  ⟨derived_noWaits, derived_waitsOf vd⟩

theorem DerivedPairs.waitsOn {ab : Pairs} (h : DerivedPairs s ab) (used : Elem → Bool × Bool) :
    Derived s (ab.waitsOn used) := fun e j hj =>
  (mem_waitsOn.mp hj).elim (fun ha => h.1 e j ha.2) fun hb => h.2 e j hb.2

theorem DerivedPairs.waits {ab : Pairs} (h : DerivedPairs s ab) : Derived s ab.waits := h.waitsOn _

/-- Every load that an element waits for after a vector register write it waited for before, or is one of
the loads `d` of an element written. -/
theorem awaited_setElemsWhere {k : VReg} {n : Nat} {w : Elem → Bool} {f : Elem → Word} {d : Waits} {j : Nat}
    (h : Awaited (s.setElemsWhere k n w f d) j) : Awaited s j ∨ ∃ e, e.val < n ∧ j ∈ d e := by
  obtain ⟨q, e, hj⟩ := h
  by_cases hq : q ≠ k ∨ q = 0#5
  · exact .inl ⟨q, e, waitsOf_setElemsWhere_keeps s k q n w f d e hq ▸ hj⟩
  obtain ⟨rfl, h0⟩ : q = k ∧ q ≠ 0#5 := by simpa using hq
  by_cases hk : q.toNat < Config.nvreg
  · rw [waitsOf_setElemsWhere_same s q n w f d e h0 hk] at hj
    split at hj
    · next hn =>
      split at hj
      · exact .inr ⟨e, hn, hj⟩
      · exact (List.mem_union_iff.mp hj).elim (fun hd => .inr ⟨e, hn, hd⟩) fun ho => .inl ⟨q, e, ho⟩
    · exact .inl ⟨q, e, hj⟩
  · exact .inl ⟨q, e, setElemsWhere_absent s q n w f d (by omega) ▸ hj⟩

/-- Loads stay unfinished when more accesses are recorded. -/
theorem UnfinishedLoad.record {j : Nat} (h : UnfinishedLoad s j) (new : List Access) :
    UnfinishedLoad (s.record new) j := by
  obtain ⟨x, hx, hv⟩ := h
  have hj : j < s.pending.length := (List.getElem?_eq_some_iff.mp hx).1
  exact ⟨x, by rw [record_pending, List.getElem?_append_left hj, hx], hv⟩

/-- The access of element `e` of a vector load is recorded in place `e` of its accesses. -/
theorem unfinishedLoad_vecAccesses (addrs : Addrs) (size : Nat) {n : Nat} (aw : Waits) {e : Elem}
    (h : e.val < n) :
    UnfinishedLoad (s.record (vecAccesses .read addrs size n aw)) (s.pending.length + e.val) := by
  refine ⟨⟨.vector, .read, addrs e, size, aw e⟩, ?_, rfl, rfl⟩
  rw [record_pending, List.getElem?_append_right (by omega), Nat.add_sub_cancel_left, vecAccesses,
    List.getElem?_map, getElem?_elems h]
  rfl

end

/-! ### What an instruction that reads vlr can do -/

/-- The states that a vector instruction which reads vlr can lead to: an exception, or one of the effects
below on elements and bits below vlr, and the next instruction. -/
inductive VecShape (s : State) : State → Prop
  | trap (e : Exception) : VecShape s (withTrap s e)
  | elements (k : VReg) (w : Elem → Bool) (f : Elem → Word) (d : Waits) (hd : Derived s d) :
      VecShape s (s.setElemsWhere k s.vlr.toNat w f d).advance
  | overflow (k : VReg) (f : Elem → Word) (d : Waits) (p : Elem → Bool) (hd : Derived s d) :
      VecShape s ((s.setElems k s.vlr.toNat f d).orVovf s.vlr.toNat p).advance
  | flags (p : Elem → Bool) : VecShape s (s.putVcond s.vlr.toNat p).advance
  | fixedPoint (k : VReg) (w : Elem → Bool) (f : Elem → Word) (d : Waits) (p : Elem → Bool) (c : Nat)
      (hd : Derived s d) :
      VecShape s (((s.setElemsWhere k s.vlr.toNat w f d).orVsat s.vlr.toNat p).consume c).advance
  /-- A load; the unit-stride forms also increment `x[r]`, the others discard a value in `x[0]`. -/
  | load (k : VReg) (addrs : Addrs) (aw : Waits) (size : Nat) (f : Elem → Word) (r : Reg) (v : Word)
      (hd : Derived s aw) :
      VecShape s (((s.record (vecAccesses .read addrs size s.vlr.toNat aw)).setElems k s.vlr.toNat f
        fun i => (s.pending.length + i.val) :: aw i).setReg r v).advance
  /-- A store; `x[r]` as for a load. -/
  | store (addrs : Addrs) (after : Waits) (size : Nat) (f : Elem → Word) (c : Nat) (r : Reg) (v : Word) :
      VecShape s ((((s.record (vecAccesses .write addrs size s.vlr.toNat after)).storeElems addrs size
        s.vlr.toNat f).consume c).setReg r v).advance

section
variable {i : Instr} {s t : State} {vw vd : VReg} {ab : Pairs}

theorem vecShape_vecInt {f : Word → Word → Word} (hd : DerivedPairs s ab) (h : vecInt i vw ab f s = .next t) :
    VecShape s t := by
  rcases vecInt_next h with ⟨e, rfl⟩ | ⟨-, rfl⟩
  · exact .trap e
  · exact .elements _ _ _ _ hd.waits

theorem vecShape_vecIntOvf {f : Word → Word → BitVec 33} (hd : DerivedPairs s ab)
    (h : vecIntOvf i vw ab f s = .next t) : VecShape s t := by
  rcases vecIntOvf_next h with ⟨e, rfl⟩ | ⟨-, rfl⟩
  · exact .trap e
  · exact .overflow _ _ _ _ hd.waits

theorem vecShape_vecSet {p : Word → Word → Bool} (hd : DerivedPairs s ab) (h : vecSet i vw ab p s = .next t) :
    VecShape s t := by
  rcases vecSet_next h with ⟨e, rfl⟩ | ⟨-, rfl⟩
  · exact .trap e
  · exact .elements _ _ _ _ hd.waits

theorem vecShape_vecFlag {p : Word → Word → Bool} (h : vecFlag i ab p s = .next t) : VecShape s t := by
  rcases vecFlag_next h with ⟨e, rfl⟩ | ⟨-, rfl⟩
  · exact .trap e
  · exact .flags _

theorem vecShape_vecCmov {c : ZeroCond} (hd : DerivedPairs s ab) (h : vecCmov i c vw ab s = .next t) :
    VecShape s t := by
  rcases vecCmov_next h with ⟨e, rfl⟩ | ⟨-, rfl⟩
  · exact .trap e
  · exact .elements _ _ _ _ (hd.waitsOn _)

theorem vecShape_fixedPoint {k : FxKind} {rd : Reg} (hd : DerivedPairs s ab)
    (h : fixedPoint i k vw ab rd s = .next t) : VecShape s t := by
  rcases fixedPoint_next h with ⟨e, rfl⟩ | ⟨-, w, f, u, p, d, rfl⟩
  · exact .trap e
  · exact .fixedPoint _ _ _ _ _ _ (hd.waitsOn u)

/-- The two transfers of vector loads and stores, followed by a write of `x[r]`. -/
theorem vecShape_vecLoad {addrs : Addrs} {aw : Waits} {w : Width} {r : Reg} {v : Word} (hd : Derived s aw)
    (h : vecLoad vd addrs aw w s.vlr.toNat s (fun u => .next (u.setReg r v).advance) = .next t) :
    VecShape s t := by
  rcases vecLoad_next h with ⟨e, rfl⟩ | ⟨-, h⟩
  · exact .trap e
  · cases h
    exact .load _ _ _ _ _ _ _ hd

theorem vecShape_vecStore {addrs : Addrs} {aw : Waits} {w : Width} {r : Reg} {v : Word}
    (h : vecStore vd addrs aw w s.vlr.toNat s (fun u => .next (u.setReg r v).advance) = .next t) :
    VecShape s t := by
  rcases vecStore_next h with ⟨e, rfl⟩ | ⟨-, h⟩
  · exact .trap e
  · cases h
    exact .store _ _ _ _ _ _ _

theorem vecShape_unitLoad {w : Width} {rd rt : Reg} (h : unitStride i vecLoad w vd rd rt s = .next t) :
    VecShape s t := by
  rcases unitStride_next h with ⟨e, rfl⟩ | ⟨-, -, h⟩
  · exact .trap e
  · exact vecShape_vecLoad derived_noWaits h

theorem vecShape_unitStore {w : Width} {rd rt : Reg} (h : unitStride i vecStore w vd rd rt s = .next t) :
    VecShape s t := by
  rcases unitStride_next h with ⟨e, rfl⟩ | ⟨-, -, h⟩
  · exact .trap e
  · exact vecShape_vecStore h

theorem vecShape_addressedLoad {w : Width} {addrs : Addrs} {aw : Waits} (hd : Derived s aw)
    (h : addressed i vecLoad w vd addrs aw s = .next t) : VecShape s t := by
  rcases addressed_next h with ⟨e, rfl⟩ | ⟨-, h⟩
  · exact .trap e
  · exact vecShape_vecLoad (r := 0#5) (v := 0#32) hd h

theorem vecShape_addressedStore {w : Width} {addrs : Addrs} {aw : Waits}
    (h : addressed i vecStore w vd addrs aw s = .next t) : VecShape s t := by
  rcases addressed_next h with ⟨e, rfl⟩ | ⟨-, h⟩
  · exact .trap e
  · exact vecShape_vecStore (r := 0#5) (v := 0#32) h

theorem vecShape_vextV {vt : VReg} {rd : Reg} (h : execVextV vd vt rd s = .next t) : VecShape s t := by
  rcases vecIssue_next h with ⟨e, rfl⟩ | ⟨-, h⟩
  · exact .trap e
  split at h
  · rw [raise_next.mp h]
    exact .trap _
  · split at h
    · simp at h
    · cases h
      exact .elements _ _ _ _ (derived_waitsAt _ _)

/-- What an instruction that reads vlr can do (R15). -/
theorem vecShape_of_readsVlr (hv : readsVlr i) (h : exec i s = .next t) : VecShape s t := by
  unfold exec at h
  cases i with
  | vextV => exact vecShape_vextV h
  | lbaiV | lhaiV | lwaiV | lbuaiV | lhuaiV => exact vecShape_unitLoad h
  | sbaiV | shaiV | swaiV => exact vecShape_unitStore h
  | lbxV | lhxV | lwxV | lbuxV | lhuxV => exact vecShape_addressedLoad (derived_waitsOf _) h
  | lbstV | lhstV | lwstV | lbustV | lhustV => exact vecShape_addressedLoad derived_noWaits h
  | sbxV | shxV | swxV | sbstV | shstV | swstV => exact vecShape_addressedStore h
  | andVv | orVv | xorVv | norVv | adduVv | subuVv | sllvVv | srlvVv | sravVv =>
    exact vecShape_vecInt (derived_vv _ _) h
  | andVs | orVs | xorVs | norVs | adduVs | subuVs | sllvVs | srlvVs | sravVs =>
    exact vecShape_vecInt (derived_vs _ _) h
  | subuSv | sllvSv | srlvSv | sravSv => exact vecShape_vecInt (derived_sv _ _) h
  | addVv | subVv => exact vecShape_vecIntOvf (derived_vv _ _) h
  | addVs | subVs => exact vecShape_vecIntOvf (derived_vs _ _) h
  | subSv => exact vecShape_vecIntOvf (derived_sv _ _) h
  | sltVv | sltuVv | seqVv => exact vecShape_vecSet (derived_vv _ _) h
  | sltVs | sltuVs | seqVs => exact vecShape_vecSet (derived_vs _ _) h
  | sltSv | sltuSv => exact vecShape_vecSet (derived_sv _ _) h
  | fltVv | fltVs | fltSv | fltuVv | fltuVs | fltuSv | feqVv | feqVs => exact vecShape_vecFlag h
  | cmvnezVv | cmvgezVv | cmvlezVv | cmveqzVv | cmvltzVv | cmvgtzVv =>
    exact vecShape_vecCmov (derived_vv _ _) h
  | cmvnezVs | cmvgezVs | cmvlezVs | cmveqzVs | cmvltzVs | cmvgtzVs =>
    exact vecShape_vecCmov (derived_vs _ _) h
  | fxaddVv | fxsubVv | fxmulVv => exact vecShape_fixedPoint (derived_vv _ _) h
  | fxaddVs | fxsubVs | fxmulVs => exact vecShape_fixedPoint (derived_vs _ _) h
  | fxaddSv | fxsubSv | fxmulSv => exact vecShape_fixedPoint (derived_sv _ _) h
  | _ => exact absurd hv (by unfold readsVlr encode; simp)

end

/-! ### Nothing at or beyond vlr is changed -/

/-- From `s` to `t` the elements and the flag bits from `n` on are kept, and with `n` zero memory too. -/
structure KeepsBeyond (n : Nat) (s t : State) : Prop where
  elem : ∀ (k : VReg) (e : Elem), n ≤ e.val → t.elem k e = s.elem k e
  vcond : ∀ i, n ≤ i → t.vcond.getLsbD i = s.vcond.getLsbD i
  vovf : ∀ i, n ≤ i → t.vovf.getLsbD i = s.vovf.getLsbD i
  vsat : ∀ i, n ≤ i → t.vsat.getLsbD i = s.vsat.getLsbD i
  byte : n = 0 → ∀ a, t.byte a = s.byte a

theorem VecShape.keepsBeyond {s t : State} (h : VecShape s t) : KeepsBeyond s.vlr.toNat s t := by
  cases h with
  | trap e =>
    constructor <;> intros
    case elem => exact elem_congr (withTrap_vregs s e) _ _
    case byte => exact byte_congr (withTrap_mem s e) _
    all_goals simp
  | elements k w f d =>
    constructor <;> intros <;> simp [elem_setElemsWhere_beyond, *]
  | overflow k f d p =>
    constructor <;> intros <;> simp [elem_setElems_beyond, getLsbD_sticky_beyond, *]
  | flags p =>
    constructor <;> intros <;> simp [getLsbD_replaceFlags_beyond, *]
  | fixedPoint k w f d p c =>
    constructor <;> intros <;> simp [elem_setElemsWhere_beyond, getLsbD_sticky_beyond, *]
  | load k addrs aw size f r v =>
    constructor <;> intros <;> simp [elem_setElems_beyond, *]
  | store addrs after size f c r v =>
    constructor <;> intros <;> simp [*]

/-- Settles O15: every effect an instruction that reads vlr can have is bounded by vlr. -/
theorem vectorLengthBoundsEffects : Obligations.VectorLengthBoundsEffects := by
  intro i s t hv h
  have hk := (vecShape_of_readsVlr hv h).keepsBeyond
  exact ⟨hk.elem, fun n hn => ⟨hk.vcond n hn, hk.vovf n hn, hk.vsat n hn⟩,
    fun h0 => hk.byte (by simp [h0])⟩

/-! ### The issue checks of coprocessor 2 -/

/-- How an instruction is issued: one with vector registers, or a control register move, by `vuIssue`; a
coprocessor 2 instruction the vector unit does not define by `undefinedCop2`; the others are of another
coprocessor or none, and neither of the last two names a vector register (R44, R106, R235). -/
theorem exec_issue (i : Instr) (s : State) :
    (∃ k, exec i s = vuIssue i s k) ∨
      i.vregs = [] ∧ (exec i s = undefinedCop2 i s ∨ ¬ usesCop2 i) := by
  unfold exec
  cases i with
  | cfvu | ctvu | vinsS | vextS | vextV
  | lbaiV | lhaiV | lwaiV | lbuaiV | lhuaiV | sbaiV | shaiV | swaiV
  | lbxV | lhxV | lwxV | lbuxV | lhuxV | lbstV | lhstV | lwstV | lbustV | lhustV
  | sbxV | shxV | swxV | sbstV | shstV | swstV
  | andVv | orVv | xorVv | norVv | andVs | orVs | xorVs | norVs
  | addVv | adduVv | subVv | subuVv | addVs | adduVs | subVs | subuVs | subSv | subuSv
  | sllvVv | srlvVv | sravVv | sllvVs | srlvVs | sravVs | sllvSv | srlvSv | sravSv
  | sltVv | sltuVv | seqVv | sltVs | sltuVs | seqVs | sltSv | sltuSv
  | fltVv | fltuVv | feqVv | fltVs | fltuVs | feqVs | fltSv | fltuSv
  | cmvnezVv | cmvgezVv | cmvlezVv | cmveqzVv | cmvltzVv | cmvgtzVv
  | cmvnezVs | cmvgezVs | cmvlezVs | cmveqzVs | cmvltzVs | cmvgtzVs
  | fxaddVv | fxsubVv | fxmulVv | fxaddVs | fxsubVs | fxmulVs | fxaddSv | fxsubSv | fxmulSv =>
    exact .inl ⟨_, rfl⟩
  | lwc2 | swc2 | ldc2 | sdc2 | mfc2 | mtc2 | bc2f | bc2t | bc2fl | bc2tl => exact .inr ⟨rfl, .inl rfl⟩
  | _ => exact .inr ⟨rfl, .inr (by unfold usesCop2 encode; simp)⟩

theorem vuIssue_unusable {i : Instr} {s : State} (h : s.cu2 = false) (k : Result) :
    vuIssue i s k = raise (.coprocessorUnusable 2#2) s := by
  simp [vuIssue, h]

theorem vuIssue_absent {i : Instr} {s : State} (h : s.cu2 = true) (ha : ∃ k ∈ i.vregs, 16 ≤ k.toNat)
    (k : Result) : vuIssue i s k = raise (.reservedInstruction (encode i)) s := by
  have ha' : namesAbsentVreg i = true := by simpa [namesAbsentVreg] using ha
  simp [vuIssue, h, ha']

/-- Settles O13: the two checks come first in the issue of every coprocessor 2 instruction. -/
theorem cop2IssueChecks : Obligations.Cop2IssueChecks := by
  refine ⟨fun i s hu hc => traps_of_raise ?_, fun i s hc ha => traps_of_raise ?_⟩
  · obtain ⟨k, hk⟩ | ⟨-, hk | hn⟩ := exec_issue i s
    · rw [hk, vuIssue_unusable hc]
    · simp [hk, undefinedCop2, hc]
    · exact absurd hu hn
  · obtain ⟨k, hk⟩ | ⟨hv, -⟩ := exec_issue i s
    · rw [hk, vuIssue_absent hc ha]
    · simp [hv] at ha

/-! ### The invariant in two parts -/

/-- The clauses of the invariant about registers, memory and the record of unfinished loads. -/
structure DataInv (s : State) : Prop where
  mem_wf : Memory.wf s.mem = true
  x0_zero : s.regs[0] = 0#32
  vr0_zero : s.vregs[0] = Vector.replicate Config.mvl 0#32
  waits_ok : ∀ j, Awaited s j → UnfinishedLoad s j

theorem inv_iff {s : State} : Inv s ↔ DataInv s ∧ pcConsistent s ∧ trapConsistent s :=
  ⟨fun h => ⟨⟨h.mem_wf, h.x0_zero, h.vr0_zero, waitsConsistent_iff.mp h.waits_ok⟩, h.pc_ok, h.trap_ok⟩,
    fun ⟨hd, hp, ht⟩ => ⟨hd.mem_wf, hd.x0_zero, hd.vr0_zero, hp, ht, waitsConsistent_iff.mpr hd.waits_ok⟩⟩

/-- What every effect of an instruction does, short of where control goes next: the invariant of the data is
kept, and the parameters, CU2, the recorded trap and the program counters do not change. -/
structure Keeps (s t : State) : Prop where
  data : DataInv s → DataInv t
  params : t.params = s.params
  cu2 : t.cu2 = s.cu2
  trap : t.trap = s.trap
  pc : t.pc = s.pc
  npc : t.npc = s.npc

theorem Keeps.refl (s : State) : Keeps s s := ⟨id, rfl, rfl, rfl, rfl, rfl⟩

theorem Keeps.trans {s t u : State} (h : Keeps s t) (h' : Keeps t u) : Keeps s u where
  data := h'.data ∘ h.data
  params := h'.params.trans h.params
  cu2 := h'.cu2.trans h.cu2
  trap := h'.trap.trans h.trap
  pc := h'.pc.trans h.pc
  npc := h'.npc.trans h.npc

/-- The invariant of the data reads these fields and no other. -/
theorem DataInv.congr {s t : State} (h : DataInv s) (hmem : t.mem = s.mem) (hregs : t.regs = s.regs)
    (hvregs : t.vregs = s.vregs) (hwaits : t.waits = s.waits) (hpending : t.pending = s.pending) :
    DataInv t where
  mem_wf := hmem ▸ h.mem_wf
  x0_zero := by simpa only [hregs] using h.x0_zero
  vr0_zero := by simpa only [hvregs] using h.vr0_zero
  waits_ok := fun j ⟨k, e, hj⟩ => by
    simpa only [UnfinishedLoad, hpending] using h.waits_ok j ⟨k, e, waitsOf_congr hwaits k e ▸ hj⟩

/-- An effect on none of the fields that the invariant reads. -/
theorem Keeps.of_untouched {s t : State} (hmem : t.mem = s.mem := by simp) (hregs : t.regs = s.regs := by simp)
    (hvregs : t.vregs = s.vregs := by simp) (hwaits : t.waits = s.waits := by simp)
    (hpending : t.pending = s.pending := by simp) (params : t.params = s.params := by simp)
    (cu2 : t.cu2 = s.cu2 := by simp) (trap : t.trap = s.trap := by simp) (pc : t.pc = s.pc := by simp)
    (npc : t.npc = s.npc := by simp) : Keeps s t :=
  ⟨fun h => h.congr hmem hregs hvregs hwaits hpending, params, cu2, trap, pc, npc⟩

/-! ### Every effect keeps it -/

section
variable (s : State)

theorem setReg_regs_zero (r : Reg) (v : Word) : (s.setReg r v).regs[0] = s.regs[0] := by
  unfold State.setReg
  split
  · rfl
  · next hr =>
    have hne : r.toNat ≠ 0 := fun e => hr (BitVec.eq_of_toNat_eq e)
    simp [hne]

theorem setElemsWhere_vregs_zero (k : VReg) (n : Nat) (w : Elem → Bool) (f : Elem → Word) (d : Waits) :
    (s.setElemsWhere k n w f d).vregs[0] = s.vregs[0] := by
  rw [State.setElemsWhere, setWaits_vregs]
  unfold State.setVreg
  split
  · rfl
  · next hk =>
    have hne : k.toNat ≠ 0 := fun e => hk (BitVec.eq_of_toNat_eq e)
    simp [hne]

theorem keeps_setReg (r : Reg) (v : Word) : Keeps s (s.setReg r v) := by
  refine ⟨fun h => ?_, by simp, by simp, by simp, by simp, by simp⟩
  have hw : ∀ j, Awaited (s.setReg r v) j → UnfinishedLoad (s.setReg r v) j := by
    simpa [Awaited, UnfinishedLoad] using h.waits_ok
  exact ⟨by simpa using h.mem_wf, (setReg_regs_zero s r v).trans h.x0_zero, by simpa using h.vr0_zero, hw⟩

/-- A vector register write keeps it when the loads it enters are unfinished ones. -/
theorem keeps_setElemsWhere (k : VReg) (n : Nat) (w : Elem → Bool) (f : Elem → Word) {d : Waits}
    (hd : DataInv s → ∀ e, e.val < n → ∀ j ∈ d e, UnfinishedLoad s j) :
    Keeps s (s.setElemsWhere k n w f d) := by
  refine ⟨fun h => ?_, by simp, by simp, by simp, by simp, by simp⟩
  refine ⟨by simpa using h.mem_wf, by simpa using h.x0_zero,
    (setElemsWhere_vregs_zero s k n w f d).trans h.vr0_zero, fun j hj => ?_⟩
  have hu : UnfinishedLoad s j := (awaited_setElemsWhere hj).elim (h.waits_ok j)
    fun ⟨e, he, hje⟩ => hd h e he j hje
  simpa [UnfinishedLoad] using hu

theorem keeps_setElemsWhere_derived (k : VReg) (n : Nat) (w : Elem → Bool) (f : Elem → Word) {d : Waits}
    (hd : Derived s d) : Keeps s (s.setElemsWhere k n w f d) :=
  keeps_setElemsWhere s k n w f fun h e _ j hj => h.waits_ok j (hd e j hj)

theorem keeps_record (new : List Access) : Keeps s (s.record new) where
  data h := by
    refine ⟨h.mem_wf, h.x0_zero, h.vr0_zero, fun j hj => (h.waits_ok j ?_).record new⟩
    simpa [Awaited] using hj
  params := rfl
  cu2 := rfl
  trap := rfl
  pc := rfl
  npc := rfl

/-- The transfer of a vector load: its accesses are recorded, and its elements wait for them. -/
theorem keeps_vecLoad (k : VReg) (addrs : Addrs) (size n : Nat) (f : Elem → Word) {aw : Waits}
    (hd : Derived s aw) :
    Keeps s ((s.record (vecAccesses .read addrs size n aw)).setElems k n f
      fun i => (s.pending.length + i.val) :: aw i) := by
  have hr := keeps_record s (vecAccesses .read addrs size n aw)
  refine hr.trans (keeps_setElemsWhere _ k n _ f fun h e he j hj => ?_)
  rcases List.mem_cons.mp hj with rfl | hj
  · exact unfinishedLoad_vecAccesses addrs size aw he
  · refine h.waits_ok j ?_
    simpa [Awaited] using hd e j hj

/-- A change of memory alone keeps it when it keeps the canonical form. -/
theorem keeps_of_mem {t : State} (ht : t = { s with mem := t.mem })
    (hm : Memory.wf s.mem = true → Memory.wf t.mem = true) : Keeps s t := by
  rw [ht]
  exact ⟨fun h => ⟨hm h.mem_wf, h.x0_zero, h.vr0_zero, h.waits_ok⟩, rfl, rfl, rfl, rfl, rfl⟩

theorem keeps_store (a : Word) (n : Nat) (w : Word) : Keeps s (s.store a n w) :=
  keeps_of_mem s rfl (wf_store a n w)

theorem keeps_storeElems (addrs : Addrs) (size n : Nat) (f : Elem → Word) :
    Keeps s (s.storeElems addrs size n f) :=
  keeps_of_mem s (storeElems_only_mem s addrs size n f) (wf_storeElems s addrs size n f)

/-- After a SYNC no element waits for a load. -/
theorem keeps_syncMemory : Keeps s s.syncMemory where
  data h := ⟨h.mem_wf, h.x0_zero, h.vr0_zero, fun j ⟨k, e, hj⟩ => by simp at hj⟩
  params := rfl
  cu2 := rfl
  trap := rfl
  pc := rfl
  npc := rfl

theorem keeps_consume (n : Nat) : Keeps s (s.consume n) := .of_untouched
theorem keeps_setHiLo (u v : Word) : Keeps s (s.setHiLo u v) := .of_untouched
theorem keeps_moveToHi (v : Word) : Keeps s (s.moveToHi v) := .of_untouched
theorem keeps_moveToLo (v : Word) : Keeps s (s.moveToLo v) := .of_untouched
theorem keeps_orVovf (n : Nat) (p : Elem → Bool) : Keeps s (s.orVovf n p) := .of_untouched
theorem keeps_orVsat (n : Nat) (p : Elem → Bool) : Keeps s (s.orVsat n p) := .of_untouched
theorem keeps_putVcond (n : Nat) (p : Elem → Bool) : Keeps s (s.putVcond n p) := .of_untouched
theorem keeps_setFgr (r : Reg) (v : Word) : Keeps s (s.setFgr r v) := .of_untouched
theorem keeps_setFcr (r : Reg) (v : Word) : Keeps s (s.setFcr r v) := .of_untouched
theorem keeps_afterVcrRead (cs : BitVec 5) : Keeps s (s.afterVcrRead cs) := .of_untouched

/-- LL and SC change what they remember of the last LL. -/
theorem keeps_link (b c : Bool) (a : Word) : Keeps s { s with llBit := b, llAddr := a, llClean := c } :=
  .of_untouched

theorem keeps_writeVcr {cs : BitVec 5} {v : Word} {t : State} (h : s.writeVcr cs v = some t) : Keeps s t := by
  unfold State.writeVcr at h
  split at h <;> cases h
  all_goals exact .of_untouched

end

/-! ### What a step can do -/

/-- The states that a step can lead to: an exception, or an effect that keeps the invariant of the data
followed by a move of the program counters; a jump or branch moves them only outside a delay slot. -/
inductive StepShape (s : State) : State → Prop
  | trap (e : Exception) : StepShape s (withTrap s e)
  | advance {u : State} (h : Keeps s u) : StepShape s u.advance
  | take {u : State} (hs : s.slot = none) (h : Keeps s u) (a : Word) : StepShape s (u.takeBranch a)
  | pass {u : State} (hs : s.slot = none) (h : Keeps s u) : StepShape s u.passBranch
  | nullify {u : State} (hs : s.slot = none) (h : Keeps s u) : StepShape s u.nullifySlot

theorem VecShape.stepShape {s t : State} (h : VecShape s t) : StepShape s t := by
  cases h with
  | trap e => exact .trap e
  | elements k w f d hd => exact .advance (keeps_setElemsWhere_derived s k _ w f hd)
  | overflow k f d p hd =>
    exact .advance ((keeps_setElemsWhere_derived s k _ _ f hd).trans (keeps_orVovf _ _ p))
  | flags p => exact .advance (keeps_putVcond s _ p)
  | fixedPoint k w f d p c hd =>
    exact .advance (((keeps_setElemsWhere_derived s k _ w f hd).trans (keeps_orVsat _ _ p)).trans
      (keeps_consume _ c))
  | load k addrs aw size f r v hd =>
    exact .advance ((keeps_vecLoad s k addrs size _ f hd).trans (keeps_setReg _ r v))
  | store addrs after size f c r v =>
    exact .advance ((((keeps_record s _).trans (keeps_storeElems _ addrs size _ f)).trans
      (keeps_consume _ c)).trans (keeps_setReg _ r v))

/-! ### The scalar instructions and the control register moves -/

section
variable {s t u : State}

theorem stepShape_next (hk : Keeps s u) (h : (Host.Outcome.next u.advance : Result) = .next t) :
    StepShape s t := by
  cases h
  exact .advance hk

theorem stepShape_raise {e : Exception} (h : raise e s = .next t) : StepShape s t :=
  raise_next.mp h ▸ .trap e

theorem stepShape_writeReg {rd : Reg} {v : Word} (h : writeReg rd v s = .next t) : StepShape s t :=
  stepShape_next (keeps_setReg s rd v) h

theorem stepShape_writeOrOverflow {rd : Reg} {v : BitVec 33} (h : writeOrOverflow rd v s = .next t) :
    StepShape s t := by
  rcases writeOrOverflow_next h with rfl | rfl
  · exact .trap _
  · exact .advance (keeps_setReg s rd _)

theorem stepShape_divUndefined (h : divUndefined s = .next t) : StepShape s t :=
  stepShape_next ((keeps_setHiLo s _ _).trans (keeps_consume _ 2)) h

theorem stepShape_div {rs rt : Reg} (h : execDiv rs rt s = .next t) : StepShape s t := by
  unfold execDiv at h
  split at h
  · exact stepShape_divUndefined h
  · exact stepShape_next (keeps_setHiLo s _ _) h

theorem stepShape_divu {rs rt : Reg} (h : execDivu rs rt s = .next t) : StepShape s t := by
  unfold execDivu at h
  split at h
  · exact stepShape_divUndefined h
  · exact stepShape_next (keeps_setHiLo s _ _) h

theorem stepShape_trapIf {c : Bool} (h : trapIf c s = .next t) : StepShape s t := by
  rcases trapIf_next h with ⟨-, rfl⟩ | ⟨-, rfl⟩
  · exact .trap _
  · exact .advance (.refl s)

/-! Memory accesses -/

theorem stepShape_accessing {new : List Access} {k : State → Result} (h : s.accessing new k = .next t)
    (hk : k (s.record new) = .next t → StepShape s t) : StepShape s t := by
  rcases accessing_next h with ⟨a, rfl⟩ | ⟨-, h⟩
  · exact .trap _
  · exact hk h

theorem stepShape_scalarLoad {a : Word} {n : Nat} {f : Word → Word} {rt : Reg}
    (h : scalarLoad a n f rt s = .next t) : StepShape s t := by
  rcases scalarLoad_next h with ⟨e, rfl⟩ | rfl
  · exact .trap e
  · exact .advance ((keeps_record s _).trans (keeps_setReg _ rt _))

theorem stepShape_scalarStore {a : Word} {n : Nat} {rt : Reg} (h : scalarStore a n rt s = .next t) :
    StepShape s t := by
  rcases scalarStore_next h with ⟨e, rfl⟩ | rfl
  · exact .trap e
  · exact .advance ((keeps_record s _).trans (keeps_store _ a n _))

theorem stepShape_partialLoad {a : Word} {m : Word → Word → Word} {rt : Reg}
    (h : partialLoad a m rt s = .next t) : StepShape s t := by
  rcases partialLoad_next h with ⟨e, rfl⟩ | rfl
  · exact .trap e
  · exact .advance ((keeps_record s _).trans (keeps_setReg _ rt _))

theorem stepShape_partialStore {a : Word} {n : Nat} {v : Word} (h : partialStore a n v s = .next t) :
    StepShape s t := by
  rcases partialStore_next h with ⟨e, rfl⟩ | rfl
  · exact .trap e
  · exact .advance ((keeps_record s _).trans (keeps_store _ a n v))

theorem stepShape_ll {rt base : Reg} {offset : BitVec 16} (h : execLl rt offset base s = .next t) :
    StepShape s t := by
  unfold execLl at h
  dsimp only at h
  split at h
  · exact stepShape_raise h
  · exact stepShape_accessing h fun h => stepShape_next
      (((keeps_record s _).trans (keeps_setReg _ rt _)).trans (keeps_link _ true true _)) h

theorem stepShape_sc {rt base : Reg} {offset : BitVec 16} (h : execSc rt offset base s = .next t) :
    StepShape s t := by
  unfold execSc at h
  dsimp only at h
  split at h
  · exact stepShape_raise h
  split at h
  · refine stepShape_accessing h fun h => stepShape_next ?_ h
    exact ((((keeps_record s _).trans (keeps_store _ _ 4 _)).trans (keeps_link _ false _ _)).trans
      (keeps_setReg _ rt _)).trans (keeps_consume _ _)
  · exact stepShape_next (((keeps_link s false false s.llAddr).trans (keeps_setReg _ rt _)).trans
      (keeps_consume _ _)) h

/-! Jumps and branches -/

theorem stepShape_take {a : Word} (hk : Keeps s u)
    (h : notInSlot s (.next (u.takeBranch a)) = .next t) : StepShape s t := by
  obtain ⟨hs, h⟩ := notInSlot_next h
  cases h
  exact .take hs hk a

theorem stepShape_jalr {rd rs : Reg} (h : execJalr rd rs s = .next t) : StepShape s t := by
  obtain ⟨hs, h⟩ := notInSlot_next h
  split at h
  · simp at h
  · cases h
    exact .take hs (keeps_setReg s rd _) _

theorem stepShape_branchIf {c : Bool} {o : BitVec 16} (hk : Keeps s u) (hslot : u.slot = s.slot)
    (h : branchIf c o u = .next t) : StepShape s t := by
  obtain ⟨hs, rfl⟩ := branchIf_next h
  rw [hslot] at hs
  cases c with
  | false => exact .pass hs hk
  | true => exact .take hs hk _

theorem stepShape_branchLikelyIf {c : Bool} {o : BitVec 16} (hk : Keeps s u) (hslot : u.slot = s.slot)
    (h : branchLikelyIf c o u = .next t) : StepShape s t := by
  obtain ⟨hs, rfl⟩ := branchLikelyIf_next h
  rw [hslot] at hs
  cases c with
  | false => exact .nullify hs hk
  | true => exact .take hs hk _

theorem stepShape_link {rs : Reg} {c : Bool} {o : BitVec 16} (h : linking rs s (branchIf c o) = .next t) :
    StepShape s t := by
  obtain ⟨-, -, h⟩ := linking_next h
  exact stepShape_branchIf (keeps_setReg s _ _) (by simp) h

theorem stepShape_linkLikely {rs : Reg} {c : Bool} {o : BitVec 16}
    (h : linking rs s (branchLikelyIf c o) = .next t) : StepShape s t := by
  obtain ⟨-, -, h⟩ := linking_next h
  exact stepShape_branchLikelyIf (keeps_setReg s _ _) (by simp) h

/-! Coprocessors -/

theorem stepShape_cop1Instr {k : Result} (h : cop1Instr s k = .next t) (hk : k = .next t → StepShape s t) :
    StepShape s t := by
  rcases cop1Instr_next h with ⟨-, rfl⟩ | ⟨-, h⟩
  · exact .trap _
  · exact hk h

theorem stepShape_cop1Word {f : BitVec 26} (h : cop1Word f s = .next t) : StepShape s t := by
  rcases cop1Word_next h with ⟨e, rfl⟩ | ⟨r, v, n, rfl⟩ | ⟨r, v, rfl⟩ | ⟨r, v, rfl⟩ |
    ⟨-, hs, ⟨a, rfl⟩ | rfl | rfl⟩
  · exact .trap e
  · exact .advance ((keeps_consume s n).trans (keeps_setReg _ r v))
  · exact .advance (keeps_setFgr s r v)
  · exact .advance (keeps_setFcr s r v)
  · exact .take hs (.refl s) a
  · exact .pass hs (.refl s)
  · exact .nullify hs (.refl s)

theorem stepShape_lwc1 {rt base : Reg} {offset : BitVec 16} (h : execLwc1 rt offset base s = .next t) :
    StepShape s t := by
  refine stepShape_cop1Instr h fun h => ?_
  split at h
  · exact stepShape_raise h
  · exact stepShape_accessing h (stepShape_next ((keeps_record s _).trans (keeps_setFgr _ rt _)))

theorem stepShape_swc1 {rt base : Reg} {offset : BitVec 16} (h : execSwc1 rt offset base s = .next t) :
    StepShape s t := by
  refine stepShape_cop1Instr h fun h => ?_
  split at h
  · exact stepShape_raise h
  · exact stepShape_accessing h (stepShape_next ((keeps_record s _).trans (keeps_store _ _ 4 _)))

theorem stepShape_ldc1 {rt base : Reg} {offset : BitVec 16} (h : execLdc1 rt offset base s = .next t) :
    StepShape s t := by
  refine stepShape_cop1Instr h fun h => ?_
  rcases onDoubleword_next h with rfl | h
  · exact .trap _
  · exact stepShape_accessing h (stepShape_next
      (((keeps_record s _).trans (keeps_setFgr _ rt _)).trans (keeps_setFgr _ _ _)))

theorem stepShape_sdc1 {rt base : Reg} {offset : BitVec 16} (h : execSdc1 rt offset base s = .next t) :
    StepShape s t := by
  refine stepShape_cop1Instr h fun h => ?_
  rcases onDoubleword_next h with rfl | h
  · exact .trap _
  · exact stepShape_accessing h (stepShape_next
      (((keeps_record s _).trans (keeps_store _ _ 4 _)).trans (keeps_store _ _ 4 _)))

theorem stepShape_undefinedCop2 {i : Instr} (h : undefinedCop2 i s = .next t) : StepShape s t := by
  rcases undefinedCop2_next h with ⟨-, rfl⟩ | ⟨-, rfl⟩ <;> exact .trap _

theorem stepShape_vuIssue {i : Instr} {k : Result} (h : vuIssue i s k = .next t)
    (hk : k = .next t → StepShape s t) : StepShape s t := by
  rcases vuIssue_next h with rfl | rfl | ⟨-, h⟩
  · exact .trap _
  · exact .trap _
  · exact hk h

theorem stepShape_cfvu {rt : Reg} {cs : BitVec 5} (h : execCfvu rt cs s = .next t) : StepShape s t := by
  refine stepShape_vuIssue h fun h => ?_
  split at h
  · simp at h
  · exact stepShape_next ((keeps_afterVcrRead s cs).trans (keeps_setReg _ rt _)) h

theorem stepShape_ctvu {rt : Reg} {cs : BitVec 5} (h : execCtvu rt cs s = .next t) : StepShape s t := by
  refine stepShape_vuIssue h fun h => ?_
  split at h
  · simp at h
  · next hw => exact stepShape_next (keeps_writeVcr s hw) h

theorem stepShape_vinsS {rt rd : Reg} {vd : VReg} (h : execVinsS rt vd rd s = .next t) : StepShape s t := by
  refine stepShape_vuIssue h fun h => ?_
  split at h
  · exact stepShape_raise h
  · exact stepShape_next (keeps_setElemsWhere_derived s vd _ _ _ derived_noWaits) h

theorem stepShape_vextS {rt rd : Reg} {vd : VReg} (h : execVextS rt vd rd s = .next t) : StepShape s t := by
  refine stepShape_vuIssue h fun h => ?_
  split at h
  · exact stepShape_raise h
  · exact stepShape_writeReg h

/-- What an instruction can do. -/
theorem stepShape_exec {i : Instr} (h : exec i s = .next t) : StepShape s t := by
  by_cases hv : readsVlr i
  · exact (vecShape_of_readsVlr hv h).stepShape
  unfold exec at h
  cases i with
  | add | sub | addi => exact stepShape_writeOrOverflow h
  | addu | subu | and | or | xor | nor | slt | sltu | sll | srl | sra | sllv | srlv | srav
  | addiu | slti | sltiu | andi | ori | xori | lui | mfhi | mflo => exact stepShape_writeReg h
  | mult | multu => exact stepShape_next (keeps_setHiLo s _ _) h
  | div => exact stepShape_div h
  | divu => exact stepShape_divu h
  | mthi => exact stepShape_next (keeps_moveToHi s _) h
  | mtlo => exact stepShape_next (keeps_moveToLo s _) h
  | lb | lbu | lh | lhu | lw => exact stepShape_scalarLoad h
  | lwl | lwr => exact stepShape_partialLoad h
  | sb | sh | sw => exact stepShape_scalarStore h
  | swl | swr => exact stepShape_partialStore h
  | ll => exact stepShape_ll h
  | sc => exact stepShape_sc h
  | sync => exact stepShape_next (keeps_syncMemory s) h
  | j | jr => exact stepShape_take (.refl s) h
  | jal => exact stepShape_take (keeps_setReg s _ _) h
  | jalr => exact stepShape_jalr h
  | beq | bne | blez | bgtz | bltz | bgez => exact stepShape_branchIf (.refl s) rfl h
  | beql | bnel | blezl | bgtzl | bltzl | bgezl => exact stepShape_branchLikelyIf (.refl s) rfl h
  | bltzal | bgezal => exact stepShape_link h
  | bltzall | bgezall => exact stepShape_linkLikely h
  | tge | tgeu | tlt | tltu | teq | tne | tgei | tgeiu | tlti | tltiu | teqi | tnei =>
    exact stepShape_trapIf h
  | syscall | brk | cop3 | lwc3 | swc3 => exact stepShape_raise h
  | cop0 => simp [execCop0] at h
  | cop1 => exact stepShape_cop1Instr h stepShape_cop1Word
  | lwc1 => exact stepShape_lwc1 h
  | swc1 => exact stepShape_swc1 h
  | ldc1 => exact stepShape_ldc1 h
  | sdc1 => exact stepShape_sdc1 h
  | lwc2 | swc2 | ldc2 | sdc2 | mfc2 | mtc2 | bc2f | bc2t | bc2fl | bc2tl => exact stepShape_undefinedCop2 h
  | cfvu => exact stepShape_cfvu h
  | ctvu => exact stepShape_ctvu h
  | vinsS => exact stepShape_vinsS h
  | vextS => exact stepShape_vextS h
  | _ => exact absurd (by unfold readsVlr encode; simp) hv

end

/-! ### Every step keeps the invariant -/

section
variable {s t : State}

/-- A fetch that stops the step without a refusal takes an exception (R432, R433, R436, R437). -/
theorem stepShape_fetch (h : fetch s = .stop (.next t)) : StepShape s t := by
  have hr : ∀ w, reservedWord w s = .next t → StepShape s t := fun w h => by
    unfold reservedWord at h
    split at h <;> exact stepShape_raise h
  have hraise : ∀ e, Fetched.stop (raise e s) = .stop (.next t) → StepShape s t := fun e h =>
    stepShape_raise (Fetched.stop.inj h)
  unfold fetch at h
  split at h
  · simp at h
  split at h
  · exact hraise _ h
  split at h
  · exact hraise _ h
  split at h
  · simp at h
  unfold decodeAtPc at h
  split at h
  · simp at h
  · exact hr _ (Fetched.stop.inj h)
  · exact hr _ (Fetched.stop.inj h)
  · simp at h

/-- A step runs only on a machine that has taken no exception (R440), and then does what its instruction
or its fetch does. -/
theorem stepShape_step (h : step s = .next t) : s.trap = none ∧ StepShape s t := by
  unfold step fetchOrEnd at h
  cases ht : s.trap with
  | some o => simp [ht] at h
  | none =>
    simp only [ht] at h
    cases hf : fetch s with
    | run i => exact ⟨rfl, stepShape_exec (by simpa only [hf] using h)⟩
    | stop r =>
      simp only [hf] at h
      exact ⟨rfl, stepShape_fetch (h ▸ hf)⟩

/-- The data survives a move of the program counters. -/
theorem Keeps.inv {u : State} (h : Keeps s u) (hs : s.trap = none) (hi : Inv s) (hmem : t.mem = u.mem)
    (hregs : t.regs = u.regs) (hvregs : t.vregs = u.vregs) (hwaits : t.waits = u.waits)
    (hpending : t.pending = u.pending) (htrap : t.trap = u.trap) (hpc : pcConsistent t) : Inv t := by
  have ht : trapConsistent t := by simp [trapConsistent, htrap, h.trap, hs]
  exact inv_iff.mpr ⟨(h.data (inv_iff.mp hi).1).congr hmem hregs hvregs hwaits hpending, hpc, ht⟩

/-- Outside a delay slot the next instruction is the next word (R22). -/
theorem npc_eq_of_inv (hi : Inv s) (hs : s.slot = none) : s.npc = s.pc + 4#32 := by
  simpa [pcConsistent, hs] using hi.pc_ok

theorem StepShape.inv (h : StepShape s t) (hs : s.trap = none) (hi : Inv s) : Inv t := by
  cases h with
  | trap e =>
    obtain ⟨hd, hp, -⟩ := inv_iff.mp hi
    have hd' : DataInv (withTrap s e) :=
      hd.congr (by simp) (by simp) (by simp) (by simp) (by simp)
    have hp' : pcConsistent (withTrap s e) := by simpa [pcConsistent] using hp
    exact inv_iff.mpr ⟨hd', hp', trapConsistent_withTrap s e hp⟩
  | advance hk => exact hk.inv hs hi rfl rfl rfl rfl rfl rfl (by simp [pcConsistent])
  | take hn hk a =>
    exact hk.inv hs hi rfl rfl rfl rfl rfl rfl
      (by simp [pcConsistent, hk.pc, hk.npc, npc_eq_of_inv hi hn])
  | pass hn hk =>
    exact hk.inv hs hi rfl rfl rfl rfl rfl rfl
      (by simp [pcConsistent, hk.pc, hk.npc, npc_eq_of_inv hi hn])
  | nullify hn hk =>
    exact hk.inv hs hi rfl rfl rfl rfl rfl rfl (by simp [pcConsistent, BitVec.add_assoc])

theorem StepShape.system (h : StepShape s t) : t.params = s.params ∧ t.cu2 = s.cu2 := by
  cases h with
  | trap e => simp
  | advance hk | take _ hk | pass _ hk | nullify _ hk => exact ⟨hk.params, hk.cu2⟩

end

/-- Settles O8: every step is of one of the shapes, and each shape keeps the invariant. -/
theorem stepKeepsInvariant : Obligations.StepKeepsInvariant := by
  intro s t h
  obtain ⟨hs, hshape⟩ := stepShape_step h
  exact ⟨hshape.inv hs, hshape.system⟩

end Sys2Proof.Scope

/-! SUPPORT. The statements of the state family: reset, the fetch and the step (R23, R49, R436 to R438), the
registers and the instructions that write them one by one (R20 to R46), who writes the vector flag and length
registers (R33 to R41), and the loads that a vector register element comes from (R75). -/

namespace Sys2Proof.Safety

open Sys2Proof.Machine

/-! ### The frame of each state update -/

section
variable {m : Touches} {s t u : State}

theorem frame_refl : Frame m s s := by
  constructor <;> simp

theorem Frame.trans (h : Frame m s t) (h' : Frame m t u) : Frame m s u where
  regs r hr := (h'.regs r hr).trans (h.regs r hr)
  vregs k hk e := (h'.vregs k hk e).trans (h.vregs k hk e)
  waits hm k hk e := (h'.waits hm k hk e).trans (h.waits hm k hk e)
  hiLo hm := by simp [h'.hiLo hm, h.hiLo hm]
  vcount hm := (h'.vcount hm).trans (h.vcount hm)
  vlr hm := (h'.vlr hm).trans (h.vlr hm)
  vcond hm := (h'.vcond hm).trans (h.vcond hm)
  vovf hm := (h'.vovf hm).trans (h.vovf hm)
  vsat hm := (h'.vsat hm).trans (h.vsat hm)
  fprs r hr := (h'.fprs r hr).trans (h.fprs r hr)
  fcr31 hm := (h'.fcr31 hm).trans (h.fcr31 hm)
  link hm := by simp [h'.link hm, h.link hm]
  record hm := by simp [h'.record hm, h.record hm]
  draws hm := (h'.draws hm).trans (h.draws hm)
  bytes a ha := (h'.bytes a ha).trans (h.bytes a ha)
  system := by simp [h'.system, h.system]

/-- A frame says nothing of the program counters. -/
theorem Frame.moves (h : Frame m s t) {pc npc : Word} {slot : Option Slot} {across : Bool} :
    Frame m s { t with pc := pc, npc := npc, slot := slot, acrossTop := across } :=
  ⟨h.regs, h.vregs, h.waits, h.hiLo, h.vcount, h.vlr, h.vcond, h.vovf, h.vsat, h.fprs, h.fcr31, h.link,
    h.record, h.draws, h.bytes, h.system⟩

theorem Frame.advance (h : Frame m s t) : Frame m s t.advance := h.moves
theorem Frame.takeBranch (h : Frame m s t) (a : Word) : Frame m s (t.takeBranch a) := h.moves
theorem Frame.passBranch (h : Frame m s t) : Frame m s t.passBranch := h.moves
theorem Frame.nullifySlot (h : Frame m s t) : Frame m s t.nullifySlot := h.moves

theorem Frame.setReg (h : Frame m s t) {r : Reg} (hr : r ∈ m.regs) (v : Word) : Frame m s (t.setReg r v) := by
  refine h.trans ?_
  constructor
  case regs =>
    intro q hq
    rw [reg_setReg, if_neg]
    rintro ⟨rfl, h0⟩
    exact hq.elim (absurd hr) h0
  all_goals simp

theorem Frame.setElemsWhere (h : Frame m s t) {k : VReg} (hk : k ∈ m.vregs) (n : Nat) (w : Elem → Bool)
    (f : Elem → Word) (d : Waits) : Frame m s (t.setElemsWhere k n w f d) := by
  have hne : ∀ q, q ∉ m.vregs ∨ q = 0#5 → q ≠ k ∨ q = 0#5 := fun q hq =>
    hq.imp_left fun hq e => hq (e ▸ hk)
  refine h.trans ?_
  constructor
  case vregs => exact fun q hq e => elem_setElemsWhere_keeps t k q n w f d e (hne q hq)
  case waits => exact fun _ q hq e => waitsOf_setElemsWhere_keeps t k q n w f d e (hne q hq)
  all_goals simp

theorem Frame.setElems (h : Frame m s t) {k : VReg} (hk : k ∈ m.vregs) (n : Nat) (f : Elem → Word)
    (d : Waits) : Frame m s (t.setElems k n f d) := h.setElemsWhere hk n _ f d

theorem Frame.setFgr (h : Frame m s t) {r : Reg} (hr : r ∈ m.fprs) (v : Word) : Frame m s (t.setFgr r v) := by
  refine h.trans ?_
  constructor
  case fprs => exact fun q hq => by rw [fgr_setFgr, if_neg fun e : q = r => hq (e ▸ hr)]
  all_goals simp

theorem Frame.setFcr (h : Frame m s t) {r : Reg} (hr : r = 31#5 → m.fcr31 = true) (v : Word) :
    Frame m s (t.setFcr r v) := by
  refine h.trans ?_
  constructor <;> simp
  intro hm e
  simp [hr e] at hm

theorem Frame.consume (h : Frame m s t) {n : Nat} (hn : n ≠ 0 → m.draws = true) : Frame m s (t.consume n) := by
  refine h.trans ?_
  constructor <;> simp
  intro hm
  by_contra hn'
  simp [hn hn'] at hm

theorem Frame.afterVcrRead (h : Frame m s t) {cs : BitVec 5}
    (hm : cs = 1#5 → m.vcount = true ∧ m.draws = true) : Frame m s (t.afterVcrRead cs) := by
  refine h.trans ?_
  by_cases hc : cs = 1#5
  · obtain ⟨hv, hd⟩ := hm hc
    constructor <;> simp [hv, hd]
  · rw [State.afterVcrRead, if_neg hc]
    exact frame_refl

theorem Frame.orVovf (h : Frame m s t) (hm : m.vovf = true) (n : Nat) (p : Elem → Bool) :
    Frame m s (t.orVovf n p) := by
  refine h.trans ?_
  constructor <;> simp [hm]

theorem Frame.putVcond (h : Frame m s t) (hm : m.vcond = true) (n : Nat) (p : Elem → Bool) :
    Frame m s (t.putVcond n p) := by
  refine h.trans ?_
  constructor <;> simp [hm]

theorem Frame.recording (h : Frame m s t) (hm : m.record = true) (new : List Access) :
    Frame m s (t.record new) := by
  refine h.trans ?_
  constructor <;> simp [hm]

/-- LL changes what it remembers for SC. -/
theorem Frame.setLink (h : Frame m s t) (hl : m.link = true) (hr : m.record = true) (b c : Bool) (a : Word) :
    Frame m s { t with llBit := b, llAddr := a, llClean := c } := by
  have hk : Frame m t { t with llBit := b, llAddr := a, llClean := c } := by
    constructor
    case link => simp [hl]
    case record => simp [hr]
    all_goals intros
    all_goals trivial
  exact h.trans hk

theorem Frame.store (h : Frame m s t) {a : Word} {n : Nat} (hb : ∀ b, within a n b → m.bytes b) (w : Word) :
    Frame m s (t.store a n w) := by
  refine h.trans ?_
  constructor
  case bytes => exact fun b hn => byte_store_other t a n w b fun k hk e => hn (hb b ⟨k, hk, e⟩)
  all_goals simp

end

end Sys2Proof.Safety

namespace Sys2Proof.StateRules

open Sys2Proof.Machine Sys2Proof.Safety Sys2Proof.Claims Sys2Proof.Scope

/-! ### Results of the model's operations as integers -/

section
variable (a b : Word)

theorem ofNat_toNat_add : BitVec.ofNat 32 (a.toNat + b.toNat) = a + b := by
  simp [BitVec.ofNat_add]

theorem ofInt_toInt_sub : BitVec.ofInt 32 (a.toInt - b.toInt) = a - b := by
  apply BitVec.eq_of_toInt_eq
  simp [BitVec.toInt_sub]

theorem truth_eq_boolWord (p : Prop) [Decidable p] : truth p = boolWord (decide p) := by
  simp [truth, boolWord]

theorem low5_eq_shiftCount : low5 a = shiftCount a := by
  simp [low5, shiftCount, BitVec.extractLsb'_toNat]

theorem shiftLeft_eq (n : Nat) : shiftLeft a n = a <<< n := by
  apply BitVec.eq_of_toNat_eq
  simp [shiftLeft, Nat.shiftLeft_eq]

theorem shiftRight_eq (n : Nat) : shiftRight a n = a >>> n := by
  apply BitVec.eq_of_toNat_eq
  have h : a.toNat / 2 ^ n < 2 ^ 32 := (Nat.div_le_self _ _).trans_lt a.isLt
  rw [shiftRight, BitVec.toNat_ofNat, Nat.mod_eq_of_lt h, BitVec.toNat_ushiftRight, Nat.shiftRight_eq_div_pow]

theorem shiftArith_eq (n : Nat) : shiftArith a n = a.sshiftRight n := by
  rw [shiftArith, BitVec.sshiftRight, Int.shiftRight_eq_div_pow]
  norm_cast

end

/-! ### Scalar instructions that write one register -/

/-- Settles O18: each writes its result through `writeReg`; the results agree by the lemmas above. -/
theorem registerResults : Obligations.RegisterResults := by
  have rows : ∀ r ∈ threeRegister, ∀ (rd ra rb : Reg) (s : State),
      exec (r.1 rd ra rb) s = writeReg rd (r.2 (s.reg ra) (s.reg rb)) s := by
    simp only [threeRegister, List.forall_mem_cons, ofNat_toNat_add, ofInt_toInt_sub, truth_eq_boolWord,
      low5_eq_shiftCount, shiftLeft_eq, shiftRight_eq, shiftArith_eq]
    refine ⟨?_, ?_, ?_, ?_, ?_, ?_, ?_, ?_, ?_, ?_, ?_, by simp⟩ <;> intros <;> rfl
  refine ⟨fun c f h rd ra rb s => setsReg_of_writeReg (rows _ h rd ra rb s), fun rd rt sa s => ?_⟩
  rw [shiftLeft_eq, shiftRight_eq, shiftArith_eq]
  exact ⟨setsReg_of_writeReg rfl, setsReg_of_writeReg rfl, setsReg_of_writeReg rfl⟩

/-! ### The decoder reads back what the encoder writes -/

theorem decode_special {w : Word} (h : opOf w = 0#6) : decode w = decodeSpecial w := by
  unfold decode
  rw [h]
  rfl

theorem decode_regimm {w : Word} (h : opOf w = 1#6) : decode w = decodeRegimm w := by
  unfold decode
  rw [h]
  rfl

theorem decode_cop2 {w : Word} (h : opOf w = 18#6) : decode w = decodeCop2 w := by
  unfold decode
  rw [h]
  rfl

theorem decode_encode_special {i : Instr} (h : opOf (encode i) = 0#6) : decode (encode i) = .instr i := by
  rw [decode_special h]
  unfold encode at h ⊢
  unfold decodeSpecial
  cases i <;> simp at h ⊢

theorem decode_encode_regimm {i : Instr} (h : opOf (encode i) = 1#6) : decode (encode i) = .instr i := by
  rw [decode_regimm h]
  unfold encode at h ⊢
  unfold decodeRegimm
  cases i <;> simp at h ⊢

theorem decode_encode_cop2 {i : Instr} (h : opOf (encode i) = 18#6) : decode (encode i) = .instr i := by
  rw [decode_cop2 h]
  unfold encode at h ⊢
  unfold decodeCop2 decodeIxv decodeIxs decodeMemv decodeMems decodeIntVv decodeIntVs decodeIntSv
  cases i <;> simp at h ⊢

/-- By the major opcode: three of them have tables of their own, the others are rows of the map (R93). -/
theorem decode_encode (i : Instr) : decode (encode i) = .instr i := by
  by_cases h0 : opOf (encode i) = 0#6
  · exact decode_encode_special h0
  by_cases h1 : opOf (encode i) = 1#6
  · exact decode_encode_regimm h1
  by_cases h2 : opOf (encode i) = 18#6
  · exact decode_encode_cop2 h2
  unfold encode at *
  unfold decode
  cases i <;> simp at h0 h1 h2 ⊢

/-! ### The bytes of a word -/

/-- A word with one more byte at its low end. -/
def pushByte (v : Word) (b : Byte) : Word := (v <<< 8) ||| b.setWidth 32

theorem assemble_eq_foldl (be : Bool) (bs : List Byte) :
    assemble be bs = (if be then bs else bs.reverse).foldl pushByte 0 := rfl

/-- The byte goes below the others where the word has room for it. -/
theorem toNat_pushByte {v : Word} {b : Byte} (h : v.toNat < 2 ^ 24) :
    (pushByte v b).toNat = v.toNat * 256 + b.toNat := by
  have hs : (v <<< 8).toNat = v.toNat <<< 8 := by
    rw [BitVec.toNat_shiftLeft, Nat.mod_eq_of_lt]
    rw [Nat.shiftLeft_eq]
    omega
  have hb : (b.setWidth 32).toNat = b.toNat := by
    rw [BitVec.toNat_setWidth, Nat.mod_eq_of_lt]
    omega
  rw [pushByte, BitVec.toNat_or, hs, hb, ← Nat.shiftLeft_add_eq_or_of_lt b.isLt, Nat.shiftLeft_eq]

theorem toNat_foldl_pushByte (bs : List Byte) (v : Word) (h : bs.length ≤ 4)
    (hv : v.toNat < 256 ^ (4 - bs.length)) :
    (bs.foldl pushByte v).toNat = bs.foldl (fun n b => n * 256 + b.toNat) v.toNat := by
  induction bs generalizing v with
  | nil => rfl
  | cons b bs ih =>
    simp only [List.length_cons] at h hv
    have hroom : v.toNat < 2 ^ 24 :=
      hv.trans_le (Nat.pow_le_pow_right (n := 256) (j := 3) (by omega) (by omega))
    have hp := toNat_pushByte (b := b) hroom
    rw [List.foldl_cons, List.foldl_cons, ih _ (by omega), hp]
    rw [hp, show 4 - bs.length = 4 - (bs.length + 1) + 1 by omega, Nat.pow_succ]
    omega

/-- The number that `n` bytes stand for, the most significant first. -/
theorem foldl_range_eq_sum (b : Nat → Byte) (n : Nat) :
    ((List.range n).map b).foldl (fun m b => m * 256 + b.toNat) 0 =
      ((List.range n).map fun k => (b k).toNat * 256 ^ (n - 1 - k)).sum := by
  induction n with
  | zero => rfl
  | succ n ih =>
    have hstep : ∀ k ∈ List.range n,
        (b k).toNat * 256 ^ (n + 1 - 1 - k) = (b k).toNat * 256 ^ (n - 1 - k) * 256 := fun k hk => by
      have hk := List.mem_range.mp hk
      rw [show n + 1 - 1 - k = n - 1 - k + 1 by omega, pow_succ, mul_assoc]
    simp only [List.range_succ, List.map_append, List.foldl_append, List.sum_append, ih,
      List.map_congr_left hstep, List.sum_map_mul_right]
    simp

/-- The same, the least significant first. -/
theorem foldl_reverse_range_eq_sum (b : Nat → Byte) (n : Nat) :
    ((List.range n).map b).reverse.foldl (fun m b => m * 256 + b.toNat) 0 =
      ((List.range n).map fun k => (b k).toNat * 256 ^ k).sum := by
  induction n generalizing b with
  | zero => rfl
  | succ n ih =>
    have hstep : ∀ k ∈ List.range n,
        (b (k + 1)).toNat * 256 ^ (k + 1) = (b (k + 1)).toNat * 256 ^ k * 256 := fun k _ => by
      rw [pow_succ, mul_assoc]
    have ih' := ih fun k => b (k + 1)
    rw [List.foldl_reverse] at ih' ⊢
    simp only [List.range_succ_eq_map, List.map_cons, List.map_map, Function.comp_def, List.foldr_cons,
      List.sum_cons, ih', Nat.succ_eq_add_one, List.map_congr_left hstep, List.sum_map_mul_right]
    simp [add_comm]

/-- `MemRead(a, n)` is the number that the bytes stand for (R13, R64). -/
theorem toNat_load (s : State) (a : Word) {n : Nat} (hn : n ≤ 4) : (s.load a n).toNat = unsignedAt s a n := by
  rw [State.load, assemble_eq_foldl, toNat_foldl_pushByte]
  · unfold unsignedAt State.bytes
    cases s.params.bigEndian
    · exact foldl_reverse_range_eq_sum _ n
    · exact foldl_range_eq_sum _ n
  · cases s.params.bigEndian <;> simpa [State.bytes] using hn
  · exact Nat.pow_pos (by omega)

theorem load_eq_ofNat (s : State) (a : Word) {n : Nat} (hn : n ≤ 4) :
    s.load a n = BitVec.ofNat 32 (unsignedAt s a n) := by
  rw [← toNat_load s a hn, BitVec.ofNat_toNat, BitVec.setWidth_eq]

/-- Reading a word sign-extends to the word itself (R66). -/
theorem loaded_word (s : State) (a : Word) : loaded s a 4 true = s.load a 4 := by
  apply BitVec.eq_of_toInt_eq
  rw [loaded, if_pos rfl, BitVec.toInt_ofInt, signedAt, ← toNat_load s a le_rfl, BitVec.toInt_eq_toNat_bmod]
  simp

/-- The bytes of a word as they lie in memory make up the word. -/
theorem assemble_split (be : Bool) (w : Word) : assemble be (split be 4 w) = w := by
  cases be <;> simp [assemble, split, List.range_succ, byteAt] <;> ext k hk <;> simp <;> grind

/-! ### Reset -/

/-- Settles O7: each clause of the invariant reads fields that reset gives a fixed value. -/
theorem resetState : Obligations.ResetState := by
  intro p entry
  have hinv : Inv (State.resetWith p entry) :=
    { mem_wf := wf_reset p entry
      x0_zero := rfl
      vr0_zero := rfl
      pc_ok := rfl
      trap_ok := trivial
      waits_ok := fun k e j h => by simp at h }
  exact ⟨hinv, rfl, rfl, rfl, elem_zero _, rfl⟩

/-! ### The fetch and the step -/

theorem misaligned_eq_true {a : Word} {n : Nat} : misaligned a n = true ↔ a.toNat % n ≠ 0 := by
  simp [misaligned]

theorem misaligned_eq_false {a : Word} {n : Nat} : misaligned a n = false ↔ a.toNat % n = 0 := by
  simp [misaligned]

section
variable {s : State}

theorem step_of_run {i : Instr} (ht : s.trap = none) (hf : fetch s = .run i) : step s = exec i s := by
  simp [step, fetchOrEnd, ht, hf]

theorem step_of_stop {r : Result} (ht : s.trap = none) (hf : fetch s = .stop r) : step s = r := by
  simp [step, fetchOrEnd, ht, hf]

theorem step_of_raise {e : Exception} (ht : s.trap = none) (hf : fetch s = .stop (raise e s)) :
    step s = .next (withTrap s e) := by
  rw [step_of_stop ht hf, raise_eq]

theorem fetch_wrap (h : s.acrossTop = true) : fetch s = .stop (.refused .sequentialWrap) := by
  simp [fetch, h]

theorem fetch_misaligned (ha : s.acrossTop = false) (h : s.pc.toNat % 4 ≠ 0) :
    fetch s = .stop (raise (.addressErrorLoad s.pc) s) := by
  simp [fetch, ha, misaligned_eq_true.mpr h]

/-- The checks of a fetch before the program text is looked at are passed (R23, R436, R437). -/
structure Fetchable (s : State) : Prop where
  wrap : s.acrossTop = false
  aligned : s.pc.toNat % 4 = 0
  backed : Params.firstUnbacked s.params s.pc 4 = none

theorem fetch_unbacked (ha : s.acrossTop = false) (hp : s.pc.toNat % 4 = 0)
    (h : Params.firstUnbacked s.params s.pc 4 ≠ none) : fetch s = .stop (raise (.busError s.pc) s) := by
  obtain ⟨b, hb⟩ := Option.ne_none_iff_exists'.mp h
  simp [fetch, ha, misaligned_eq_false.mpr hp, hb]

theorem fetch_modified (hf : Fetchable s) (h : s.codeModified = true) :
    fetch s = .stop (.refused .modifiedCode) := by
  simp [fetch, hf.wrap, misaligned_eq_false.mpr hf.aligned, hf.backed, h]

theorem fetch_decodes (hf : Fetchable s) (h : s.codeModified = false) : fetch s = decodeAtPc s := by
  simp [fetch, hf.wrap, misaligned_eq_false.mpr hf.aligned, hf.backed, h]

/-- The bytes at `pc` decode as the word they make up (R64, R90). -/
theorem decodeBytes_bytes (s : State) (a : Word) :
    decodeBytes s.params.bigEndian (s.bytes a 4) = decode (s.load a 4) := rfl

theorem decodeAtPc_instr {i : Instr} (h : decode (s.load s.pc 4) = .instr i) : decodeAtPc s = .run i := by
  simp [decodeAtPc, decodeBytes_bytes, h]

theorem decodeAtPc_reserved (h : decode (s.load s.pc 4) = .reserved) :
    decodeAtPc s = .stop (reservedWord (s.load s.pc 4) s) := by
  simp [decodeAtPc, decodeBytes_bytes, h]

theorem decodeAtPc_unusedBits {m : String} (h : decode (s.load s.pc 4) = .unusedBits m) :
    decodeAtPc s = .stop (.refused (.unusedFieldBits m)) := by
  simp [decodeAtPc, decodeBytes_bytes, h]

theorem reservedWord_unusable {w : Word} (h : opOf w = 18#6) (hc : s.cu2 = false) :
    reservedWord w s = raise (.coprocessorUnusable 2#2) s := by
  simp [reservedWord, h, hc]

theorem reservedWord_reserved {w : Word} (h : opOf w ≠ 18#6 ∨ s.cu2 = true) :
    reservedWord w s = raise (.reservedInstruction w) s := by
  rw [reservedWord, if_neg]
  rintro ⟨ho, hc⟩
  simp [ho, hc] at h

end

/-- Settles O9: the fetch passes its checks and gives the instruction decoded. -/
theorem stepRunsDecodedInstruction : Obligations.StepRunsDecodedInstruction := by
  intro s i ht ha hp hb hm hd
  have hf : fetch s = .run i := (fetch_decodes ⟨ha, hp, hb⟩ hm).trans (decodeAtPc_instr hd)
  exact step_of_run ht hf

/-- Settles O16: one case for each answer of the fetch, in the order of its checks (R438). -/
theorem fetchOutcomes : Obligations.FetchOutcomes := by
  intro s ht
  refine ⟨fun ha => step_of_stop ht (fetch_wrap ha), fun ha => ⟨fun hp => ?_, fun hp hb => ?_,
    fun hp hb hm => ?_, fun hp hb hm => ?_⟩⟩
  · exact step_of_raise ht (fetch_misaligned ha hp)
  · exact step_of_raise ht (fetch_unbacked ha hp hb)
  · exact step_of_stop ht (fetch_modified ⟨ha, hp, hb⟩ hm)
  · have hf := fetch_decodes ⟨ha, hp, hb⟩ hm
    simp only [← load_eq_ofNat s s.pc (n := 4) le_rfl]
    refine ⟨fun hd ho hc => step_of_raise ht ?_, fun hd ho => step_of_raise ht ?_,
      fun m hd => step_of_stop ht ?_⟩
    · rw [hf, decodeAtPc_reserved hd, reservedWord_unusable ho hc]
    · rw [hf, decodeAtPc_reserved hd, reservedWord_reserved ho]
    · rw [hf, decodeAtPc_unusedBits hd]

/-! ### Placing an instruction at the fetch -/

theorem fetchAddr_aligned (s : State) : (fetchAddr s).toNat % 4 = 0 := by
  unfold fetchAddr
  split
  · have h : (s.pc &&& ~~~3#32) &&& 3#32 = 0#32 := by simp [BitVec.and_assoc]
    have h' : (s.pc &&& ~~~3#32).toNat &&& 2 ^ 2 - 1 = 0 := congrArg BitVec.toNat h
    rwa [Nat.and_two_pow_sub_one_eq_mod] at h'
  · next h => exact misaligned_eq_false.mp (by simpa using h)

/-- The bytes of an aligned word do not wrap around the top of memory. -/
theorem toNat_byteAddr {a : Word} (ha : a.toNat % 4 = 0) {k : Nat} (hk : k < 4) :
    (byteAddr a k).toNat = a.toNat + k := by
  have hlt := a.isLt
  simp only [byteAddr, BitVec.toNat_add, BitVec.toNat_ofNat]
  omega

theorem firstUnbacked_eq_none {p : Params} {a : Word} {n : Nat} :
    Params.firstUnbacked p a n = none ↔ ∀ k < n, Params.backs p (byteAddr a k) = true := by
  simp [Params.firstUnbacked, List.find?_eq_none]

theorem firstUnbacked_backWord (p : Params) {a : Word} (ha : a.toNat % 4 = 0) :
    Params.firstUnbacked (backWord p a) a 4 = none := by
  unfold backWord
  split
  · rw [firstUnbacked_eq_none]
    intro k hk
    simp only [Params.backs, List.any_cons, toNat_byteAddr ha hk]
    simp [hk]
  · next h => simpa using h

theorem bigEndian_backWord (p : Params) (a : Word) : (backWord p a).bigEndian = p.bigEndian := by
  unfold backWord
  split <;> rfl

section
variable (s : State) (w : Word)

theorem fetchable_placeWord : Fetchable (placeWord s 32 w.toNat) where
  wrap := rfl
  aligned := fetchAddr_aligned s
  backed := firstUnbacked_backWord s.params (fetchAddr_aligned s)

theorem codeModified_placeWord : (placeWord s 32 w.toNat).codeModified = false := by
  simp [State.codeModified, placeWord]

/-- The word placed is the one that the fetch reads. -/
theorem load_placeWord (h : Memory.wf s.mem = true) :
    (placeWord s 32 w.toNat).load (placeWord s 32 w.toNat).pc 4 = w := by
  have hbe : (placeWord s 32 w.toNat).params.bigEndian = s.params.bigEndian := bigEndian_backWord _ _
  have hm : (placeWord s 32 w.toNat).mem = (s.store (fetchAddr s) 4 w).mem := by
    simp only [placeWord, store_mem, Nat.mod_eq_of_lt w.isLt, BitVec.ofNat_toNat, BitVec.setWidth_eq]
  have hbytes : (placeWord s 32 w.toNat).bytes (fetchAddr s) 4 = split s.params.bigEndian 4 w := by
    refine List.map_congr_left fun k hk => ?_
    rw [byte_congr hm]
    exact byte_store_same s _ 4 w h le_rfl (List.mem_range.mp hk)
  change assemble _ ((placeWord s 32 w.toNat).bytes (fetchAddr s) 4) = w
  rw [hbe, hbytes, assemble_split]

end

/-- Settles O10: the fetch reads the word placed, and the decoder gives back the instruction. -/
theorem placedWordRuns : Obligations.PlacedWordRuns := by
  intro s i h
  have hd : decodeAtPc (placeWord s 32 (encode i).toNat) = .run i :=
    decodeAtPc_instr (by rw [load_placeWord s _ h, decode_encode])
  have hf := fetch_decodes (fetchable_placeWord s (encode i)) (codeModified_placeWord s (encode i))
  exact step_of_run rfl (hf.trans hd)

/-! ### LL -/

/-- LL at an address where the word can be read (R175). -/
theorem execLl_ok {rt base : Reg} {o : BitVec 16} {s : State} (ha : (s.effAddr base o).toNat % 4 = 0)
    (h : accessible s (scalarAccess .read (s.effAddr base o) 4)) :
    execLl rt o base s = .next { (s.record (scalarAccess .read (s.effAddr base o) 4)).setReg rt
      (s.load (s.effAddr base o) 4) with llBit := true, llAddr := s.effAddr base o, llClean := true }.advance := by
  simp [execLl, misaligned, ha, accessing_ok h]

/-- Settles O27: the access is recorded, and the word loaded is the two's-complement value of its bytes. -/
theorem loadLinkedResult : Obligations.LoadLinkedResult := by
  intro rt o base s a ha hacc
  refine ⟨_, execLl_ok ha hacc, fun hr => ?_, rfl, rfl, rfl, ?_, ?_, ?_, ?_⟩
  · rw [loaded_word, reg_advance]
    exact reg_setReg_same _ rt _ hr
  · simp [a]
  · simp [writtenSpans, scalarAccess]
  · exact (((frame_refl.recording rfl _).setReg (by simp) _).setLink rfl rfl _ _ _).advance
  · exact goesOn_advance s (by simp) (by simp) (by simp)

/-! ### Jumps and branches -/

theorem toNat_append_zeros {n : Nat} (o : BitVec n) : (o ++ 0#2).toNat = 4 * o.toNat := by
  rw [BitVec.toNat_append, BitVec.toNat_ofNat, Nat.zero_mod, Nat.or_zero, Nat.shiftLeft_eq, mul_comm]

/-- The offset of a branch counts words (R178). -/
theorem toInt_append_zeros (o : BitVec 16) : (o ++ 0#2).toInt = 4 * o.toInt := by
  have := o.isLt
  rw [BitVec.toInt_eq_toNat_cond, BitVec.toInt_eq_toNat_cond, toNat_append_zeros]
  split <;> split <;> omega

theorem branchTarget_eq_branchDest (s : State) (o : BitVec 16) : s.branchTarget o = branchDest s o := by
  rw [State.branchTarget, branchDest, BitVec.signExtend, toInt_append_zeros]

theorem jumpTarget_eq_jumpDest (s : State) (x : BitVec 26) : s.jumpTarget x = jumpDest s x := by
  apply BitVec.eq_of_toNat_eq
  have hp := (s.pc + 4#32).isLt
  have hx := x.isLt
  have hlow : (x ++ 0#2).toNat < 2 ^ 28 := (x ++ 0#2).isLt
  rw [toNat_append_zeros] at hlow
  have hhigh : ((s.pc + 4#32).extractLsb' 28 4).toNat = (s.pc + 4#32).toNat / 2 ^ 28 := by
    rw [BitVec.extractLsb'_toNat, Nat.shiftRight_eq_div_pow, Nat.mod_eq_of_lt (by omega)]
  have hcat : (s.jumpTarget x).toNat =
      (((s.pc + 4#32).extractLsb' 28 4 ++ x).toNat) * 4 := by
    rw [State.jumpTarget, toNat_append_zeros, mul_comm]
  rw [hcat, BitVec.toNat_append, hhigh, ← Nat.shiftLeft_add_eq_or_of_lt hx, Nat.shiftLeft_eq, jumpDest,
    BitVec.toNat_ofNat]
  omega

section
variable {s : State}

/-- A conditional branch run on a machine `u` that differs from `s` in registers at most. -/
theorem result_of_branchIf {i : Instr} {u : State} {m : Touches} {taken : Bool} {o : BitVec 16}
    (hx : exec i s = branchIf taken o u) (hs : u.slot = none) (hp : u.pc = s.pc) (hn : u.npc = s.npc)
    (hf : Frame m s u) :
    ∃ t, exec i s = .next t ∧ goesToSlot s t taken (if taken then branchDest s o else s.npc + 4#32) ∧
      (∀ r, t.reg r = u.reg r) ∧ Frame m s t := by
  have hd : u.branchTarget o = branchDest s o := by
    rw [branchTarget_eq_branchDest, branchDest, branchDest, hp]
  rw [hx, branchIf, notInSlot_ok hs]
  cases taken with
  | false => exact ⟨_, rfl, goesToSlot_passBranch s hp hn, by simp, hf.passBranch⟩
  | true => exact ⟨_, rfl, hd ▸ goesToSlot_takeBranch s _ hp hn, by simp, hf.takeBranch _⟩

theorem result_of_branchLikelyIf {i : Instr} {u : State} {m : Touches} {taken : Bool} {o : BitVec 16}
    (hx : exec i s = branchLikelyIf taken o u) (hs : u.slot = none) (hp : u.pc = s.pc) (hn : u.npc = s.npc)
    (hf : Frame m s u) :
    ∃ t, exec i s = .next t ∧ (taken = true → goesToSlot s t true (branchDest s o)) ∧
      (taken = false → skipsSlot s t) ∧ (∀ r, t.reg r = u.reg r) ∧ Frame m s t := by
  have hd : u.branchTarget o = branchDest s o := by
    rw [branchTarget_eq_branchDest, branchDest, branchDest, hp]
  rw [hx, branchLikelyIf, notInSlot_ok hs]
  cases taken with
  | false => exact ⟨_, rfl, by simp, fun _ => skipsSlot_nullifySlot s hp hn, by simp, hf.nullifySlot⟩
  | true => exact ⟨_, rfl, fun _ => hd ▸ goesToSlot_takeBranch s _ hp hn, by simp, by simp, hf.takeBranch _⟩

/-- The machine after the link of a branch that links (R189, R190), or of one that does not. -/
def linked (link : Bool) (s : State) : State := if link then s.setReg 31#5 s.linkValue else s

theorem linked_pc (link : Bool) (s : State) : (linked link s).pc = s.pc := by cases link <;> simp [linked]
theorem linked_npc (link : Bool) (s : State) : (linked link s).npc = s.npc := by cases link <;> simp [linked]
theorem linked_slot (link : Bool) (s : State) : (linked link s).slot = s.slot := by cases link <;> simp [linked]

theorem reg_linked {link : Bool} (s : State) (h : link = true) : (linked link s).reg 31#5 = s.pc + 8#32 := by
  rw [linked, if_pos h, reg_setReg_same _ _ _ (by decide), State.linkValue]

theorem frame_linked (link : Bool) (s : State) : Frame { regs := if link then [31#5] else [] } s (linked link s) := by
  cases link with
  | false => exact frame_refl
  | true => exact frame_refl.setReg (r := 31#5) (by simp) _

/-- The form of a conditional branch: `run` on its condition, after the link if it has one. -/
def BranchRow (run : Bool → BitVec 16 → State → Result)
    (r : (Reg → Reg → BitVec 16 → Instr) × (Int → Int → Bool) × Bool) : Prop :=
  ∀ (rs rt : Reg) (o : BitVec 16) (s : State), s.slot = none → (r.2.2 = true → rs ≠ 31#5) →
    exec (r.1 rs rt o) s = run (r.2.1 (s.reg rs).toInt (s.reg rt).toInt) o (linked r.2.2 s)

theorem branchRow_plain {run : Bool → BitVec 16 → State → Result} {c : Reg → Reg → BitVec 16 → Instr}
    {p : Int → Int → Bool}
    (h : ∀ rs rt o s, exec (c rs rt o) s = run (p (s.reg rs).toInt (s.reg rt).toInt) o s) :
    BranchRow run (c, p, false) :=
  fun rs rt o s _ _ => h rs rt o s

theorem branchRow_linking {run : Bool → BitVec 16 → State → Result} {c : Reg → Reg → BitVec 16 → Instr}
    {p : Int → Int → Bool}
    (h : ∀ rs rt o s, exec (c rs rt o) s = linking rs s (run (p (s.reg rs).toInt (s.reg rt).toInt) o)) :
    BranchRow run (c, p, true) :=
  fun rs rt o s hs hr => (h rs rt o s).trans (linking_ok hs (hr rfl) _)

/-- Two words are equal when their signed values are. -/
theorem decide_toInt_eq (a b : Word) : decide (a.toInt = b.toInt) = (a == b) := by
  by_cases h : a = b
  · simp [h]
  · simp [h, mt BitVec.eq_of_toInt_eq h]

theorem branches_rows : ∀ r ∈ branches, BranchRow branchIf r := by
  simp only [branches, List.forall_mem_cons]
  refine ⟨branchRow_plain fun rs rt o s => ?_, branchRow_plain fun rs rt o s => ?_,
    branchRow_plain fun _ _ _ _ => rfl, branchRow_plain fun _ _ _ _ => rfl, branchRow_plain fun _ _ _ _ => rfl,
    branchRow_plain fun _ _ _ _ => rfl, branchRow_linking fun _ _ _ _ => rfl,
    branchRow_linking fun _ _ _ _ => rfl, by simp⟩
  · rw [decide_toInt_eq]; rfl
  · rw [decide_not, decide_toInt_eq]; rfl

theorem likelyBranches_rows : ∀ r ∈ likelyBranches, BranchRow branchLikelyIf r := by
  simp only [likelyBranches, List.forall_mem_cons]
  refine ⟨branchRow_plain fun rs rt o s => ?_, branchRow_plain fun rs rt o s => ?_,
    branchRow_plain fun _ _ _ _ => rfl, branchRow_plain fun _ _ _ _ => rfl, branchRow_plain fun _ _ _ _ => rfl,
    branchRow_plain fun _ _ _ _ => rfl, branchRow_linking fun _ _ _ _ => rfl,
    branchRow_linking fun _ _ _ _ => rfl, by simp⟩
  · rw [decide_toInt_eq]; rfl
  · rw [decide_not, decide_toInt_eq]; rfl

end

/-- Settles O33: each jump runs outside a delay slot, and the target of J and JAL is the number `jumpDest`. -/
theorem jumpResults : Obligations.JumpResults := by
  intro s hs
  refine ⟨fun x => ⟨?_, ?_⟩, fun rs => ?_, fun rd rs hne => ?_⟩
  · rw [← jumpTarget_eq_jumpDest]
    exact ⟨_, notInSlot_ok hs _, goesToSlot_takeBranch s _ rfl rfl, frame_refl.takeBranch _⟩
  · rw [← jumpTarget_eq_jumpDest]
    refine ⟨_, notInSlot_ok hs _, goesToSlot_takeBranch s _ (by simp) (by simp), ?_,
      (frame_refl.setReg (by simp) _).takeBranch _⟩
    rw [reg_takeBranch, reg_setReg_same _ _ _ (by decide), State.linkValue]
  · exact ⟨_, notInSlot_ok hs _, goesToSlot_takeBranch s _ rfl rfl, frame_refl.takeBranch _⟩
  · refine ⟨_, (notInSlot_ok hs _).trans (if_neg hne), goesToSlot_takeBranch s _ (by simp) (by simp),
      fun h0 => ?_, (frame_refl.setReg (by simp) _).takeBranch _⟩
    rw [reg_takeBranch, reg_setReg_same _ _ _ h0, State.linkValue]

/-- Settles O34: the branch is taken or passed on the machine that has written its link. -/
theorem branchResults : Obligations.BranchResults := by
  intro c p link hrow rs rt o s taken hs hr
  obtain ⟨t, hx, hgo, hreg, hf⟩ := result_of_branchIf (branches_rows _ hrow rs rt o s hs hr)
    ((linked_slot link s).trans hs) (linked_pc link s) (linked_npc link s) (frame_linked link s)
  exact ⟨t, hx, hgo, fun hl => (hreg _).trans (reg_linked s hl), hf⟩

/-- Settles O35: as O34, but an untaken branch nullifies its slot. -/
theorem likelyBranchResults : Obligations.LikelyBranchResults := by
  intro c p link hrow rs rt o s taken hs hr
  obtain ⟨t, hx, htaken, hpass, hreg, hf⟩ :=
    result_of_branchLikelyIf (likelyBranches_rows _ hrow rs rt o s hs hr)
      ((linked_slot link s).trans hs) (linked_pc link s) (linked_npc link s) (frame_linked link s)
  exact ⟨t, hx, htaken, hpass, fun hl => (hreg _).trans (reg_linked s hl), hf⟩

/-! ### Which instructions write the vector length and flag registers, and which ones jump -/

/-- From `s` to `u` the vector length and flag registers are kept, and so are the program counters. -/
structure Quiet (s u : State) : Prop where
  vlr : u.vlr = s.vlr := by simp
  vcond : u.vcond = s.vcond := by simp
  vovf : u.vovf = s.vovf := by simp
  vsat : u.vsat = s.vsat := by simp
  pc : u.pc = s.pc := by simp
  npc : u.npc = s.npc := by simp
  slot : u.slot = s.slot := by simp

/-- What an instruction can do to those registers: nothing, but for the jumps and branches, the instructions
that set flags, and CTVU. -/
inductive Effect (i : Instr) (s : State) : State → Prop
  | trap (e : Exception) : Effect i s (withTrap s e)
  | quiet {u : State} (h : Quiet s u) : Effect i s u.advance
  | take {u : State} (hi : isJump i = true ∨ isBc1 i = true) (h : Quiet s u) (a : Word) :
      Effect i s (u.takeBranch a)
  | pass {u : State} (hi : isJump i = true ∨ isBc1 i = true) (h : Quiet s u) : Effect i s u.passBranch
  | nullify {u : State} (hi : isJump i = true ∨ isBc1 i = true) (h : Quiet s u) : Effect i s u.nullifySlot
  | overflow {u : State} (hi : setsVovf i = true) (h : Quiet s u) (n : Nat) (p : Elem → Bool) :
      Effect i s (u.orVovf n p).advance
  | flags (hi : setsVcond i = true) (n : Nat) (p : Elem → Bool) : Effect i s (s.putVcond n p).advance
  | saturate {u : State} (hi : setsVsat i = true) (h : Quiet s u) (n : Nat) (p : Elem → Bool) (c : Nat) :
      Effect i s ((u.orVsat n p).consume c).advance
  | control {u : State} {rt : Reg} {cs : BitVec 5} {v : Word} (hi : i = .ctvu rt cs)
      (h : s.writeVcr cs v = some u) : Effect i s u.advance

section
variable {i j : Instr} {s t u : State} {vw vd : VReg} {ab : Pairs}

theorem effect_next (h : (.next u.advance : Result) = .next t) (hq : Quiet s u) : Effect i s t := by
  cases h
  exact .quiet hq

theorem effect_raise {e : Exception} (h : raise e s = .next t) : Effect i s t :=
  raise_next.mp h ▸ .trap e

theorem effect_writeReg {rd : Reg} {v : Word} (h : writeReg rd v s = .next t) : Effect i s t :=
  effect_next h {}

theorem effect_writeOrOverflow {rd : Reg} {v : BitVec 33} (h : writeOrOverflow rd v s = .next t) :
    Effect i s t := by
  rcases writeOrOverflow_next h with rfl | rfl
  · exact .trap _
  · exact .quiet {}

theorem effect_divUndefined (h : divUndefined s = .next t) : Effect i s t := effect_next h {}

theorem effect_div {rs rt : Reg} (h : execDiv rs rt s = .next t) : Effect i s t := by
  unfold execDiv at h
  split at h
  · exact effect_divUndefined h
  · exact effect_next h {}

theorem effect_divu {rs rt : Reg} (h : execDivu rs rt s = .next t) : Effect i s t := by
  unfold execDivu at h
  split at h
  · exact effect_divUndefined h
  · exact effect_next h {}

theorem effect_trapIf {c : Bool} (h : trapIf c s = .next t) : Effect i s t := by
  rcases trapIf_next h with ⟨-, rfl⟩ | ⟨-, rfl⟩
  · exact .trap _
  · exact .quiet {}

/-! Memory accesses -/

theorem effect_accessing {new : List Access} {k : State → Result} (h : s.accessing new k = .next t)
    (hk : k (s.record new) = .next t → Effect i s t) : Effect i s t := by
  rcases accessing_next h with ⟨a, rfl⟩ | ⟨-, h⟩
  · exact .trap _
  · exact hk h

theorem effect_scalarLoad {a : Word} {n : Nat} {f : Word → Word} {rt : Reg}
    (h : scalarLoad a n f rt s = .next t) : Effect i s t := by
  rcases scalarLoad_next h with ⟨e, rfl⟩ | rfl
  · exact .trap e
  · exact .quiet {}

theorem effect_scalarStore {a : Word} {n : Nat} {rt : Reg} (h : scalarStore a n rt s = .next t) :
    Effect i s t := by
  rcases scalarStore_next h with ⟨e, rfl⟩ | rfl
  · exact .trap e
  · exact .quiet {}

theorem effect_partialLoad {a : Word} {m : Word → Word → Word} {rt : Reg}
    (h : partialLoad a m rt s = .next t) : Effect i s t := by
  rcases partialLoad_next h with ⟨e, rfl⟩ | rfl
  · exact .trap e
  · exact .quiet {}

theorem effect_partialStore {a : Word} {n : Nat} {v : Word} (h : partialStore a n v s = .next t) :
    Effect i s t := by
  rcases partialStore_next h with ⟨e, rfl⟩ | rfl
  · exact .trap e
  · exact .quiet {}

theorem effect_ll {rt base : Reg} {o : BitVec 16} (h : execLl rt o base s = .next t) : Effect i s t := by
  unfold execLl at h
  dsimp only at h
  split at h
  · exact effect_raise h
  · exact effect_accessing h fun h => effect_next h {}

theorem effect_sc {rt base : Reg} {o : BitVec 16} (h : execSc rt o base s = .next t) : Effect i s t := by
  unfold execSc at h
  dsimp only at h
  split at h
  · exact effect_raise h
  split at h
  · exact effect_accessing h fun h => effect_next h {}
  · exact effect_next h {}

/-! Jumps and branches -/

theorem effect_take {a : Word} (hi : isJump i = true) (hq : Quiet s u)
    (h : notInSlot s (.next (u.takeBranch a)) = .next t) : Effect i s t := by
  cases (notInSlot_next h).2
  exact .take (.inl hi) hq a

theorem effect_jalr {rd rs : Reg} (hi : isJump i = true) (h : execJalr rd rs s = .next t) : Effect i s t := by
  have h := (notInSlot_next h).2
  split at h
  · simp at h
  · cases h
    exact .take (.inl hi) {} _

theorem effect_branchIf {c : Bool} {o : BitVec 16} (hi : isJump i = true) (hq : Quiet s u)
    (h : branchIf c o u = .next t) : Effect i s t := by
  obtain ⟨-, rfl⟩ := branchIf_next h
  cases c with
  | false => exact .pass (.inl hi) hq
  | true => exact .take (.inl hi) hq _

theorem effect_branchLikelyIf {c : Bool} {o : BitVec 16} (hi : isJump i = true) (hq : Quiet s u)
    (h : branchLikelyIf c o u = .next t) : Effect i s t := by
  obtain ⟨-, rfl⟩ := branchLikelyIf_next h
  cases c with
  | false => exact .nullify (.inl hi) hq
  | true => exact .take (.inl hi) hq _

theorem effect_link {rs : Reg} {c : Bool} {o : BitVec 16} (hi : isJump i = true)
    (h : linking rs s (branchIf c o) = .next t) : Effect i s t :=
  effect_branchIf hi {} (linking_next h).2.2

theorem effect_linkLikely {rs : Reg} {c : Bool} {o : BitVec 16} (hi : isJump i = true)
    (h : linking rs s (branchLikelyIf c o) = .next t) : Effect i s t :=
  effect_branchLikelyIf hi {} (linking_next h).2.2

/-! Coprocessors -/

theorem effect_cop1Instr {k : Result} (h : cop1Instr s k = .next t) (hk : k = .next t → Effect i s t) :
    Effect i s t := by
  rcases cop1Instr_next h with ⟨-, rfl⟩ | ⟨-, h⟩
  · exact .trap _
  · exact hk h

theorem effect_cop1 {f : BitVec 26} (h : execCop1 f s = .next t) : Effect (.cop1 f) s t := by
  refine effect_cop1Instr h fun h => ?_
  rcases cop1Word_next h with ⟨e, rfl⟩ | ⟨r, v, n, rfl⟩ | ⟨r, v, rfl⟩ | ⟨r, v, rfl⟩ |
    ⟨hf, -, ⟨a, rfl⟩ | rfl | rfl⟩
  · exact .trap e
  · exact .quiet {}
  · exact .quiet {}
  · exact .quiet {}
  all_goals have hi : isBc1 (.cop1 f) = true := by simpa [isBc1] using hf
  · exact .take (.inr hi) {} a
  · exact .pass (.inr hi) {}
  · exact .nullify (.inr hi) {}

theorem effect_lwc1 {rt base : Reg} {o : BitVec 16} (h : execLwc1 rt o base s = .next t) : Effect i s t := by
  refine effect_cop1Instr h fun h => ?_
  split at h
  · exact effect_raise h
  · exact effect_accessing h fun h => effect_next h {}

theorem effect_swc1 {rt base : Reg} {o : BitVec 16} (h : execSwc1 rt o base s = .next t) : Effect i s t := by
  refine effect_cop1Instr h fun h => ?_
  split at h
  · exact effect_raise h
  · exact effect_accessing h fun h => effect_next h {}

theorem effect_ldc1 {rt base : Reg} {o : BitVec 16} (h : execLdc1 rt o base s = .next t) : Effect i s t := by
  refine effect_cop1Instr h fun h => ?_
  rcases onDoubleword_next h with rfl | h
  · exact .trap _
  · exact effect_accessing h fun h => effect_next h {}

theorem effect_sdc1 {rt base : Reg} {o : BitVec 16} (h : execSdc1 rt o base s = .next t) : Effect i s t := by
  refine effect_cop1Instr h fun h => ?_
  rcases onDoubleword_next h with rfl | h
  · exact .trap _
  · exact effect_accessing h fun h => effect_next h {}

theorem effect_undefinedCop2 (h : undefinedCop2 j s = .next t) : Effect i s t := by
  rcases undefinedCop2_next h with ⟨-, rfl⟩ | ⟨-, rfl⟩ <;> exact .trap _

theorem effect_vuIssue {k : Result} (h : vuIssue j s k = .next t) (hk : k = .next t → Effect i s t) :
    Effect i s t := by
  rcases vuIssue_next h with rfl | rfl | ⟨-, h⟩
  · exact .trap _
  · exact .trap _
  · exact hk h

theorem effect_cfvu {rt : Reg} {cs : BitVec 5} (h : execCfvu rt cs s = .next t) : Effect i s t := by
  refine effect_vuIssue h fun h => ?_
  split at h
  · simp at h
  · exact effect_next h {}

theorem effect_ctvu {rt : Reg} {cs : BitVec 5} (h : execCtvu rt cs s = .next t) : Effect (.ctvu rt cs) s t := by
  refine effect_vuIssue h fun h => ?_
  split at h
  · simp at h
  · next hw =>
    cases h
    exact .control rfl hw

/-! Vector instructions -/

theorem effect_vextV {vt : VReg} {rd : Reg} (h : execVextV vd vt rd s = .next t) : Effect i s t := by
  rcases vecIssue_next h with ⟨e, rfl⟩ | ⟨-, h⟩
  · exact .trap e
  split at h
  · exact effect_raise h
  split at h
  · simp at h
  · exact effect_next h {}

theorem effect_vinsS {rt rd : Reg} (h : execVinsS rt vd rd s = .next t) : Effect i s t := by
  refine effect_vuIssue h fun h => ?_
  split at h
  · exact effect_raise h
  · exact effect_next h {}

theorem effect_vextS {rt rd : Reg} (h : execVextS rt vd rd s = .next t) : Effect i s t := by
  refine effect_vuIssue h fun h => ?_
  split at h
  · exact effect_raise h
  · exact effect_writeReg h

theorem effect_unitLoad {w : Width} {rd rt : Reg} (h : unitStride j vecLoad w vd rd rt s = .next t) :
    Effect i s t := by
  rcases unitStride_next h with ⟨e, rfl⟩ | ⟨-, -, h⟩
  · exact .trap e
  rcases vecLoad_next h with ⟨e, rfl⟩ | ⟨-, h⟩
  · exact .trap e
  · exact effect_next h {}

theorem effect_unitStore {w : Width} {rd rt : Reg} (h : unitStride j vecStore w vd rd rt s = .next t) :
    Effect i s t := by
  rcases unitStride_next h with ⟨e, rfl⟩ | ⟨-, -, h⟩
  · exact .trap e
  rcases vecStore_next h with ⟨e, rfl⟩ | ⟨-, h⟩
  · exact .trap e
  · exact effect_next h {}

theorem effect_addressedLoad {w : Width} {addrs : Addrs} {aw : Waits}
    (h : addressed j vecLoad w vd addrs aw s = .next t) : Effect i s t := by
  rcases addressed_next h with ⟨e, rfl⟩ | ⟨-, h⟩
  · exact .trap e
  rcases vecLoad_next h with ⟨e, rfl⟩ | ⟨-, h⟩
  · exact .trap e
  · exact effect_next h {}

theorem effect_addressedStore {w : Width} {addrs : Addrs} {aw : Waits}
    (h : addressed j vecStore w vd addrs aw s = .next t) : Effect i s t := by
  rcases addressed_next h with ⟨e, rfl⟩ | ⟨-, h⟩
  · exact .trap e
  rcases vecStore_next h with ⟨e, rfl⟩ | ⟨-, h⟩
  · exact .trap e
  · exact effect_next h {}

theorem effect_vecInt {f : Word → Word → Word} (h : vecInt j vw ab f s = .next t) : Effect i s t := by
  rcases vecInt_next h with ⟨e, rfl⟩ | ⟨-, rfl⟩
  · exact .trap e
  · exact .quiet {}

theorem effect_vecSet {p : Word → Word → Bool} (h : vecSet j vw ab p s = .next t) : Effect i s t := by
  rcases vecSet_next h with ⟨e, rfl⟩ | ⟨-, rfl⟩
  · exact .trap e
  · exact .quiet {}

theorem effect_vecCmov {c : ZeroCond} (h : vecCmov j c vw ab s = .next t) : Effect i s t := by
  rcases vecCmov_next h with ⟨e, rfl⟩ | ⟨-, rfl⟩
  · exact .trap e
  · exact .quiet {}

theorem effect_vecIntOvf {f : Word → Word → BitVec 33} (hi : setsVovf i = true)
    (h : vecIntOvf j vw ab f s = .next t) : Effect i s t := by
  rcases vecIntOvf_next h with ⟨e, rfl⟩ | ⟨-, rfl⟩
  · exact .trap e
  · exact .overflow hi {} _ _

theorem effect_vecFlag {p : Word → Word → Bool} (hi : setsVcond i = true)
    (h : vecFlag j ab p s = .next t) : Effect i s t := by
  rcases vecFlag_next h with ⟨e, rfl⟩ | ⟨-, rfl⟩
  · exact .trap e
  · exact .flags hi _ _

theorem effect_fixedPoint {k : FxKind} {rd : Reg} (hi : setsVsat i = true)
    (h : fixedPoint j k vw ab rd s = .next t) : Effect i s t := by
  rcases fixedPoint_next h with ⟨e, rfl⟩ | ⟨-, w, f, u, p, d, rfl⟩
  · exact .trap e
  · exact .saturate hi {} _ _ _

/-- What every instruction does to the vector length and flag registers and the program counters. -/
theorem effect_exec (h : exec i s = .next t) : Effect i s t := by
  unfold exec at h
  cases i with
  | add | sub | addi => exact effect_writeOrOverflow h
  | addu | subu | and | or | xor | nor | slt | sltu | sll | srl | sra | sllv | srlv | srav
  | addiu | slti | sltiu | andi | ori | xori | lui | mfhi | mflo => exact effect_writeReg h
  | mult | multu | mthi | mtlo | sync => exact effect_next h {}
  | div => exact effect_div h
  | divu => exact effect_divu h
  | lb | lbu | lh | lhu | lw => exact effect_scalarLoad h
  | lwl | lwr => exact effect_partialLoad h
  | sb | sh | sw => exact effect_scalarStore h
  | swl | swr => exact effect_partialStore h
  | ll => exact effect_ll h
  | sc => exact effect_sc h
  | j | jr | jal => exact effect_take rfl {} h
  | jalr => exact effect_jalr rfl h
  | beq | bne | blez | bgtz | bltz | bgez => exact effect_branchIf rfl {} h
  | beql | bnel | blezl | bgtzl | bltzl | bgezl => exact effect_branchLikelyIf rfl {} h
  | bltzal | bgezal => exact effect_link rfl h
  | bltzall | bgezall => exact effect_linkLikely rfl h
  | tge | tgeu | tlt | tltu | teq | tne | tgei | tgeiu | tlti | tltiu | teqi | tnei => exact effect_trapIf h
  | syscall | brk | cop3 | lwc3 | swc3 => exact effect_raise h
  | cop0 => simp [execCop0] at h
  | cop1 => exact effect_cop1 h
  | lwc1 => exact effect_lwc1 h
  | swc1 => exact effect_swc1 h
  | ldc1 => exact effect_ldc1 h
  | sdc1 => exact effect_sdc1 h
  | lwc2 | swc2 | ldc2 | sdc2 | mfc2 | mtc2 | bc2f | bc2t | bc2fl | bc2tl => exact effect_undefinedCop2 h
  | cfvu => exact effect_cfvu h
  | ctvu => exact effect_ctvu h
  | vextV => exact effect_vextV h
  | vinsS => exact effect_vinsS h
  | vextS => exact effect_vextS h
  | lbaiV | lhaiV | lwaiV | lbuaiV | lhuaiV => exact effect_unitLoad h
  | sbaiV | shaiV | swaiV => exact effect_unitStore h
  | lbxV | lhxV | lwxV | lbuxV | lhuxV | lbstV | lhstV | lwstV | lbustV | lhustV =>
    exact effect_addressedLoad h
  | sbxV | shxV | swxV | sbstV | shstV | swstV => exact effect_addressedStore h
  | andVv | orVv | xorVv | norVv | andVs | orVs | xorVs | norVs | adduVv | subuVv | adduVs | subuVs | subuSv
  | sllvVv | srlvVv | sravVv | sllvVs | srlvVs | sravVs | sllvSv | srlvSv | sravSv => exact effect_vecInt h
  | sltVv | sltuVv | seqVv | sltVs | sltuVs | seqVs | sltSv | sltuSv => exact effect_vecSet h
  | cmvnezVv | cmvgezVv | cmvlezVv | cmveqzVv | cmvltzVv | cmvgtzVv
  | cmvnezVs | cmvgezVs | cmvlezVs | cmveqzVs | cmvltzVs | cmvgtzVs => exact effect_vecCmov h
  | addVv | subVv | addVs | subVs | subSv => exact effect_vecIntOvf rfl h
  | fltVv | fltVs | fltSv | fltuVv | fltuVs | fltuSv | feqVv | feqVs => exact effect_vecFlag rfl h
  | fxaddVv | fxsubVv | fxmulVv | fxaddVs | fxsubVs | fxmulVs | fxaddSv | fxsubSv | fxmulSv =>
    exact effect_fixedPoint rfl h

end

/-- What CTVU stores: one control register, or nothing (R242, R243). -/
theorem writeVcr_some {s u : State} {cs : BitVec 5} {v : Word} (h : s.writeVcr cs v = some u) :
    u = s ∨ (cs = 2#5 ∧ u = { s with vlr := v.setWidth 8 }) ∨ (cs = 4#5 ∧ u = { s with vcond := v }) ∨
      (cs = 8#5 ∧ u = { s with vovf := v }) ∨ (cs = 12#5 ∧ u = { s with vsat := v }) := by
  unfold State.writeVcr at h
  split at h <;> cases h <;> simp

theorem control_of_writeVcr {s u : State} {cs : BitVec 5} {v : Word} (h : s.writeVcr cs v = some u) :
    u.pc = s.pc ∧ u.npc = s.npc ∧ u.slot = s.slot := by
  rcases writeVcr_some h with rfl | ⟨-, rfl⟩ | ⟨-, rfl⟩ | ⟨-, rfl⟩ | ⟨-, rfl⟩ <;> exact ⟨rfl, rfl, rfl⟩

/-- Settles O12: control goes on, for every effect that is neither a trap nor a jump. -/
theorem otherInstructionsAdvance : Obligations.OtherInstructionsAdvance := by
  intro i s t hj hb h ht
  cases effect_exec h with
  | trap e =>
    have hsome := withTrap_trap_isSome s e
    simp [ht] at hsome
  | quiet hq => exact goesOn_advance s hq.pc hq.npc hq.slot
  | take hi | pass hi | nullify hi => simp [hj, hb] at hi
  | overflow _ hq => exact goesOn_advance s hq.pc hq.npc hq.slot
  | flags => exact goesOn_advance s rfl rfl rfl
  | saturate _ hq => exact goesOn_advance s hq.pc hq.npc hq.slot
  | control _ hw =>
    obtain ⟨hp, hn, hs⟩ := control_of_writeVcr hw
    exact goesOn_advance s hp hn hs

section
variable {i : Instr} {s t : State}

theorem Effect.vlr (h : Effect i s t) (hi : ∀ rt, i ≠ .ctvu rt 2#5) : t.vlr = s.vlr := by
  cases h with
  | trap e => rw [withTrap_eq]
  | quiet hq | take _ hq | pass _ hq | nullify _ hq | overflow _ hq | saturate _ hq => exact hq.vlr
  | flags => rfl
  | control he hw =>
    rcases writeVcr_some hw with rfl | ⟨rfl, -⟩ | ⟨-, rfl⟩ | ⟨-, rfl⟩ | ⟨-, rfl⟩
    · rfl
    · exact absurd he (hi _)
    all_goals rfl

theorem Effect.vcond (h : Effect i s t) (hn : setsVcond i = false) (hi : ∀ rt, i ≠ .ctvu rt 4#5) :
    t.vcond = s.vcond := by
  cases h with
  | trap e => simp
  | quiet hq | take _ hq | pass _ hq | nullify _ hq | overflow _ hq | saturate _ hq => exact hq.vcond
  | flags hs => simp [hn] at hs
  | control he hw =>
    rcases writeVcr_some hw with rfl | ⟨-, rfl⟩ | ⟨rfl, -⟩ | ⟨-, rfl⟩ | ⟨-, rfl⟩
    · rfl
    · rfl
    · exact absurd he (hi _)
    all_goals rfl

theorem Effect.vovf (h : Effect i s t) (hn : setsVovf i = false) (hi : ∀ rt, i ≠ .ctvu rt 8#5) :
    t.vovf = s.vovf := by
  cases h with
  | trap e => simp
  | quiet hq | take _ hq | pass _ hq | nullify _ hq | saturate _ hq => exact hq.vovf
  | overflow hs => simp [hn] at hs
  | flags => rfl
  | control he hw =>
    rcases writeVcr_some hw with rfl | ⟨-, rfl⟩ | ⟨-, rfl⟩ | ⟨rfl, -⟩ | ⟨-, rfl⟩
    · rfl
    · rfl
    · rfl
    · exact absurd he (hi _)
    · rfl

/-- vsat is kept, or a fixed-point instruction ORs bits into it. -/
theorem Effect.vsat (h : Effect i s t) (hi : ∀ rt, i ≠ .ctvu rt 12#5) :
    t.vsat = s.vsat ∨ (setsVsat i = true ∧ ∃ n p, t.vsat = sticky s.vsat n p) := by
  cases h with
  | trap e => simp
  | quiet hq | take _ hq | pass _ hq | nullify _ hq | overflow _ hq => exact .inl hq.vsat
  | flags => exact .inl rfl
  | saturate hs hq n p => exact .inr ⟨hs, n, p, congrArg (sticky · n p) hq.vsat⟩
  | control he hw =>
    rcases writeVcr_some hw with rfl | ⟨-, rfl⟩ | ⟨-, rfl⟩ | ⟨-, rfl⟩ | ⟨rfl, -⟩
    · exact .inl rfl
    · exact .inl rfl
    · exact .inl rfl
    · exact .inl rfl
    · exact absurd he (hi _)

end

/-- Settles O17: the only effects on vsat are an OR by a fixed-point instruction and CTVU, the only one on vlr
is CTVU. -/
theorem vsatAndVlrWriters : Obligations.VsatAndVlrWriters := by
  intro i s t h
  have he := effect_exec h
  refine ⟨fun hi hn => ?_, fun hi k hk => ?_, he.vlr⟩
  · rcases he.vsat hi with hv | ⟨hs, -⟩
    · exact hv
    · simp [hn] at hs
  · rcases he.vsat hi with hv | ⟨-, n, p, hv⟩
    · rwa [hv]
    · rw [hv, sticky, BitVec.getLsbD_or, hk, Bool.true_or]

/-! ### The control register moves -/

section
variable {s u : State} {rt : Reg} {cs : BitVec 5} {v : Word}

theorem exec_cfvu (hc : s.cu2 = true) (h : s.readVcr cs = some v) :
    exec (.cfvu rt cs) s = .next ((s.afterVcrRead cs).setReg rt v).advance := by
  have hu : vuUsable (.cfvu rt cs) s := ⟨hc, by simp [Instr.vregs]⟩
  change execCfvu rt cs s = _
  rw [execCfvu, vuIssue_ok hu, h]

theorem exec_ctvu (hc : s.cu2 = true) (h : s.writeVcr cs (s.reg rt) = some u) :
    exec (.ctvu rt cs) s = .next u.advance := by
  have hu : vuUsable (.ctvu rt cs) s := ⟨hc, by simp [Instr.vregs]⟩
  change execCtvu rt cs s = _
  rw [execCtvu, vuIssue_ok hu, h]

/-- Reading any control register but vcount changes none of them (R241). -/
theorem setsReg_cfvu (hc : s.cu2 = true) (h1 : cs ≠ 1#5) (h : s.readVcr cs = some v) :
    setsReg (.cfvu rt cs) s rt v :=
  setsReg_of_writeReg (by rw [exec_cfvu hc h, State.afterVcrRead, if_neg h1, writeReg])

theorem frame_writeVcr {m : Touches} (h : s.writeVcr cs v = some u) (hvlr : cs = 2#5 → m.vlr = true)
    (hvcond : cs = 4#5 → m.vcond = true) (hvovf : cs = 8#5 → m.vovf = true)
    (hvsat : cs = 12#5 → m.vsat = true) : Frame m s u := by
  rcases writeVcr_some h with rfl | ⟨hcs, rfl⟩ | ⟨hcs, rfl⟩ | ⟨hcs, rfl⟩ | ⟨hcs, rfl⟩
  · exact frame_refl
  · exact { frame_refl (m := m) (s := s) with vlr := by simp [hvlr hcs] }
  · exact { frame_refl (m := m) (s := s) with vcond := by simp [hvcond hcs] }
  · exact { frame_refl (m := m) (s := s) with vovf := by simp [hvovf hcs] }
  · exact { frame_refl (m := m) (s := s) with vsat := by simp [hvsat hcs] }

end

/-- Settles O41: each control register is read through `readVcr`; a read of vcount also stores the value. -/
theorem controlRegisterReads : Obligations.ControlRegisterReads := by
  intro rt s hc
  refine ⟨setsReg_cfvu hc (by decide) rfl, setsReg_cfvu hc (by decide) ?_, setsReg_cfvu hc (by decide) rfl,
    setsReg_cfvu hc (by decide) rfl, setsReg_cfvu hc (by decide) rfl, _, exec_cfvu hc rfl, fun hr => ?_, ?_,
    goesOn_advance s (by simp) (by simp) (by simp)⟩
  · exact congrArg some (BitVec.eq_of_toNat_eq (by simp))
  · simp [reg_setReg, hr, State.afterVcrRead]
  · exact ((frame_refl.afterVcrRead (by simp)).setReg (by simp) _).advance

/-- A CTVU of an existing control register completes, with the frame of that register. -/
theorem result_of_ctvu {s u : State} {rt : Reg} {cs : BitVec 5} (m : Touches) (hc : s.cu2 = true)
    (h : s.writeVcr cs (s.reg rt) = some u) (hvlr : cs = 2#5 → m.vlr = true := by simp)
    (hvcond : cs = 4#5 → m.vcond = true := by simp) (hvovf : cs = 8#5 → m.vovf = true := by simp)
    (hvsat : cs = 12#5 → m.vsat = true := by simp) :
    exec (.ctvu rt cs) s = .next u.advance ∧ Frame m s u.advance ∧ goesOn s u.advance := by
  obtain ⟨hp, hn, hs⟩ := control_of_writeVcr h
  exact ⟨exec_ctvu hc h, (frame_writeVcr h hvlr hvcond hvovf hvsat).advance, goesOn_advance s hp hn hs⟩

/-- Settles O42: what `writeVcr` stores, for each of the six registers. -/
theorem controlRegisterWrites : Obligations.ControlRegisterWrites := by
  intro rt s hc
  have vrev := result_of_ctvu (rt := rt) (cs := 0#5) {} hc rfl
  have vcount := result_of_ctvu (rt := rt) (cs := 1#5) {} hc rfl
  have vlr := result_of_ctvu (rt := rt) (cs := 2#5) { vlr := true } hc rfl
  have vcond := result_of_ctvu (rt := rt) (cs := 4#5) { vcond := true } hc rfl
  have vovf := result_of_ctvu (rt := rt) (cs := 8#5) { vovf := true } hc rfl
  have vsat := result_of_ctvu (rt := rt) (cs := 12#5) { vsat := true } hc rfl
  exact ⟨⟨_, vrev⟩, ⟨_, vcount⟩, ⟨_, vlr.1, BitVec.toNat_setWidth 8 _, vlr.2⟩, ⟨_, vcond.1, rfl, vcond.2⟩,
    ⟨_, vovf.1, rfl, vovf.2⟩, ⟨_, vsat.1, rfl, vsat.2⟩⟩

/-! ### The tables of vector instructions -/

/-- The operands of an instruction of the form `f`, as the model holds them. -/
def formPairs (f : Form) (s : State) (x y : BitVec 5) : Pairs :=
  match f with
  | .vv => s.vv x y
  | .vs => s.vs x y
  | .sv => s.sv x y

@[simp] theorem val_formPairs (f : Form) (s : State) (x y : BitVec 5) :
    (formPairs f s x y).val = f.operands s x y := by
  cases f <;> rfl

@[simp] theorem waitsA_formPairs (f : Form) (s : State) (x y : BitVec 5) :
    (formPairs f s x y).waitsA = fun e => (f.waits s x y e).1 := by
  cases f <;> rfl

@[simp] theorem waitsB_formPairs (f : Form) (s : State) (x y : BitVec 5) :
    (formPairs f s x y).waitsB = fun e => (f.waits s x y e).2 := by
  cases f <;> rfl

/-- The instruction `c` with operands of the form `f` does what `run` says, and names its destination. -/
structure VecRow (c : Form3) (f : Form) (run : Instr → VReg → Pairs → State → Result) : Prop where
  runs : ∀ vw x y s, exec (c vw x y) s = run (c vw x y) vw (formPairs f s x y) s := by intros; rfl
  names : ∀ vw x y, vw ∈ (c vw x y).vregs := by simp [Instr.vregs]

theorem vectorResults_rows : ∀ r ∈ vectorResults, VecRow r.1 r.2.1 fun i vw ab => vecInt i vw ab r.2.2 := by
  simp only [vectorResults, List.forall_mem_cons, List.not_mem_nil, IsEmpty.forall_iff, implies_true, and_true,
    ofNat_toNat_add, ofInt_toInt_sub, truth_eq_boolWord, low5_eq_shiftCount, shiftLeft_eq, shiftRight_eq, shiftArith_eq]
  and_intros
  all_goals exact {}

/-- The 33-bit result of an overflowing instruction is the exact one (R310, R314). -/
theorem toInt_sum33 (a b : Word) : (sum33 a b).toInt = a.toInt + b.toInt := by
  have := a.toInt_lt; have := b.toInt_lt; have := a.le_toInt; have := b.le_toInt
  rw [sum33, BitVec.toInt_add, BitVec.toInt_signExtend_of_le (by omega), BitVec.toInt_signExtend_of_le (by omega)]
  exact Int.bmod_eq_of_le (by omega) (by omega)

theorem toInt_diff33 (a b : Word) : (diff33 a b).toInt = a.toInt - b.toInt := by
  have := a.toInt_lt; have := b.toInt_lt; have := a.le_toInt; have := b.le_toInt
  rw [diff33, BitVec.toInt_sub, BitVec.toInt_signExtend_of_le (by omega), BitVec.toInt_signExtend_of_le (by omega)]
  exact Int.bmod_eq_of_le (by omega) (by omega)

theorem overflowing_rows : ∀ r ∈ overflowing, ∃ h : Word → Word → BitVec 33,
    (∀ a b, (h a b).toInt = r.2.2 a.toInt b.toInt) ∧
      VecRow r.1 r.2.1 fun i vw ab => vecIntOvf i vw ab h := by
  simp only [overflowing, List.forall_mem_cons]
  exact ⟨⟨_, toInt_sum33, {}⟩, ⟨_, toInt_sum33, {}⟩, ⟨_, toInt_diff33, {}⟩, ⟨_, toInt_diff33, {}⟩,
    ⟨_, toInt_diff33, {}⟩, by simp⟩

theorem flagging_rows : ∀ r ∈ flagging, ∀ (x y : BitVec 5) (s : State),
    exec (r.1 x y) s = vecFlag (r.1 x y) (formPairs r.2.1 s x y) r.2.2 s := by
  simp only [flagging, List.forall_mem_cons, List.not_mem_nil, IsEmpty.forall_iff, implies_true, and_true]
  and_intros
  all_goals intros; rfl

/-! ### Vector results and flags -/

section
variable {s : State} {vw : VReg}

/-- The first `vlr` elements of an existing register after a vector register write. -/
theorem elemsAre_of_setElems {i : Instr} {t : State} {f g : Elem → Word} {d : Waits} (hr : vecReady i s)
    (hv : vw ∈ i.vregs) (ht : t.vregs = (s.setElems vw s.vlr.toNat g d).vregs) (hg : ∀ e, g e = f e) :
    elemsAre s t vw f := by
  intro h0 e
  rw [elem_congr ht, elem_setElems_same s vw _ g d e h0 (hr.1.2 vw hv), hg]

end

/-- Settles O54: a row of the table runs `vecInt` with its own function. -/
theorem vectorResults : Obligations.VectorResults := by
  intro c f g hrow vw x y s hr
  obtain ⟨hx, hn⟩ := vectorResults_rows _ hrow
  refine ⟨_, (hx vw x y s).trans (vecIssue_ok hr _), elemsAre_of_setElems hr (hn vw x y) rfl fun e => ?_,
    (frame_refl.setElems (by simp) _ _ _).advance, goesOn_advance s (by simp) (by simp) (by simp)⟩
  rw [val_formPairs]

/-- A 33-bit number fits 32 signed bits unless its two top bits differ. -/
theorem overflows_iff (v : BitVec 33) : overflows v = true ↔ ¬ fits v.toInt := by
  have hlt := v.isLt
  have h32 : v.getLsbD 32 = decide (2 ^ 32 ≤ v.toNat) := by
    rw [BitVec.getLsbD, Nat.testBit_eq_decide_div_mod_eq]
    exact decide_eq_decide.mpr (by omega)
  have h31 : v.getLsbD 31 = decide (2 ^ 31 ≤ v.toNat % 2 ^ 32) := by
    rw [BitVec.getLsbD, Nat.testBit_eq_decide_div_mod_eq]
    exact decide_eq_decide.mpr (by omega)
  rw [overflows, h32, h31, bne_iff_ne, ne_eq, decide_eq_decide, BitVec.toInt_eq_toNat_cond]
  split <;> omega

theorem setWidth_eq_ofInt (v : BitVec 33) : v.setWidth 32 = BitVec.ofInt 32 v.toInt := by
  apply BitVec.eq_of_toNat_eq
  have hlt := v.isLt
  rw [BitVec.toNat_setWidth, BitVec.toNat_ofInt, BitVec.toInt_eq_toNat_cond]
  split <;> omega

/-- Settles O55: the five instructions run `vecIntOvf` with the exact 33-bit result; by `effect_exec` nothing
else but CTVU writes vovf. -/
theorem overflowRegister : Obligations.OverflowRegister := by
  refine ⟨fun c f g hrow vw x y s => ?_, fun rt s hc => ⟨?_, ?_⟩, fun i s t h hn hi =>
    (effect_exec h).vovf hn hi⟩
  · intro v hr
    obtain ⟨h, hexact, hx, hn⟩ := overflowing_rows _ hrow
    have hv : ∀ e, (h (f.operands s x y e).1 (f.operands s x y e).2).toInt = v e := fun e => hexact _ _
    refine ⟨_, (hx vw x y s).trans (vecIssue_ok hr _), elemsAre_of_setElems hr (hn vw x y) rfl fun e => ?_, fun e => ?_,
      ((frame_refl.setElems (by simp) _ _ _).orVovf rfl _ _).advance,
      goesOn_advance s (by simp) (by simp) (by simp)⟩
    · rw [val_formPairs, setWidth_eq_ofInt, hv]
    · simp [BitVec.getLsbD_eq_getElem, getElem_sticky, overflows_iff, hv]
  · exact setsReg_cfvu hc (by decide) rfl
  · exact ⟨_, exec_ctvu hc rfl, rfl⟩

/-- Settles O56: the eight instructions run `vecFlag`; by `effect_exec` nothing else but CTVU writes vcond. -/
theorem conditionRegister : Obligations.ConditionRegister := by
  refine ⟨fun c f p hrow x y s hr => ?_, fun rt s hc => ⟨_, exec_ctvu hc rfl, rfl⟩, fun i s t h hn hi =>
    (effect_exec h).vcond hn hi⟩
  refine ⟨_, (flagging_rows _ hrow x y s).trans (vecIssue_ok hr _), fun e => ?_,
    (frame_refl.putVcond rfl _ _).advance, goesOn_advance s (by simp) (by simp) (by simp)⟩
  simp [BitVec.getLsbD_eq_getElem, getElem_replaceFlags]

/-! ### The fields of a word of coprocessor 1 -/

section
variable (op k rt rd : BitVec 5) (o : BitVec 16)

theorem selector_move : (op ++ rt ++ rd ++ 0#11).extractLsb' 21 5 = op := by
  ext i hi; simp only [BitVec.getElem_extractLsb', BitVec.getLsbD_append]; grind

theorem rt_move : (op ++ rt ++ rd ++ 0#11).extractLsb' 16 5 = rt := by
  ext i hi; simp only [BitVec.getElem_extractLsb', BitVec.getLsbD_append]; grind

theorem rd_move : (op ++ rt ++ rd ++ 0#11).extractLsb' 11 5 = rd := by
  ext i hi; simp only [BitVec.getElem_extractLsb', BitVec.getLsbD_append]; grind

theorem unused_move : (op ++ rt ++ rd ++ 0#11).extractLsb' 0 11 = 0#11 := by
  ext i hi; simp only [BitVec.getElem_extractLsb', BitVec.getLsbD_append]; grind

theorem cop1Move_word (m : String) (run : Reg → Reg → Result) :
    cop1Move m (op ++ rt ++ rd ++ 0#11) run = run rt rd := by
  rw [cop1Move, if_pos (unused_move op rt rd), rt_move, rd_move]

theorem selector_branch : (0b01000#5 ++ k ++ o).extractLsb' 21 5 = 0b01000#5 := by
  ext i hi; simp only [BitVec.getElem_extractLsb', BitVec.getLsbD_append]; grind

theorem kind_branch : (0b01000#5 ++ k ++ o).extractLsb' 16 5 = k := by
  ext i hi; simp only [BitVec.getElem_extractLsb', BitVec.getLsbD_append]; grind

theorem offset_branch : (0b01000#5 ++ k ++ o).extractLsb' 0 16 = o := by
  ext i hi; simp only [BitVec.getElem_extractLsb', BitVec.getLsbD_append]; grind

end

/-! ### The moves and branches of coprocessor 1 -/

section
variable {s : State} {f : BitVec 26}

theorem exec_cop1 (h : s.params.hasFpu = true) : exec (.cop1 f) s = cop1Word f s := cop1Instr_ok h _

section
variable (h : s.params.hasFpu = true) (rt rd : Reg)
include h

theorem exec_mfc1 : exec (moveWord 0#5 rt rd) s = writeReg rt (s.fgr rd) s := by
  rw [moveWord, exec_cop1 h, cop1Word, selector_move]
  exact cop1Move_word ..

theorem exec_cfc1 :
    exec (moveWord 2#5 rt rd) s = writeReg rt (s.fcr rd) (s.consume (fcrDraws rd)) := by
  rw [moveWord, exec_cop1 h, cop1Word, selector_move]
  exact cop1Move_word ..

theorem exec_mtc1 : exec (moveWord 4#5 rt rd) s = .next (s.setFgr rd (s.reg rt)).advance := by
  rw [moveWord, exec_cop1 h, cop1Word, selector_move]
  exact cop1Move_word ..

theorem exec_ctc1 : exec (moveWord 6#5 rt rd) s = .next (s.setFcr rd (s.reg rt)).advance := by
  rw [moveWord, exec_cop1 h, cop1Word, selector_move]
  exact cop1Move_word ..

/-- BC1T and BC1F: the condition signal, or its complement. -/
theorem exec_bc1 (sense : Bool) (o : BitVec 16) :
    exec (branchWord (if sense then 1#5 else 0#5) o) s = branchIf (s.fpCondition == sense) o s := by
  rw [branchWord, exec_cop1 h, cop1Word, selector_branch]
  simp only [cop1Branch, kind_branch, offset_branch]
  cases sense <;> simp

theorem exec_bc1l (sense : Bool) (o : BitVec 16) :
    exec (branchWord ((if sense then 1#5 else 0#5) + 2#5) o) s =
      branchLikelyIf (s.fpCondition == sense) o s := by
  rw [branchWord, exec_cop1 h, cop1Word, selector_branch]
  simp only [cop1Branch, kind_branch, offset_branch]
  cases sense <;> simp

end

theorem fpCondition_eq : s.fpCondition = (s.fcr31.toNat / 2 ^ 23 % 2 == 1) := by
  rw [State.fpCondition, BitVec.getLsbD, Nat.testBit_eq_decide_div_mod_eq]
  rfl

theorem notInSlot_refused (h : s.slot ≠ none) (k : Result) : notInSlot s k = .refused .branchInDelaySlot := by
  rw [notInSlot, if_pos (Option.isSome_iff_ne_none.mpr h)]

theorem toNat_selector : (f.extractLsb' 21 5).toNat = f.toNat / 2 ^ 21 := by
  have := f.isLt
  rw [BitVec.extractLsb'_toNat, Nat.shiftRight_eq_div_pow, Nat.mod_eq_of_lt (by omega)]

theorem toNat_kind : (f.extractLsb' 16 5).toNat = f.toNat / 2 ^ 16 % 32 := by
  rw [BitVec.extractLsb'_toNat, Nat.shiftRight_eq_div_pow]

theorem toNat_unused : (f.extractLsb' 0 11).toNat = f.toNat % 2 ^ 11 := by
  rw [BitVec.extractLsb'_toNat, Nat.shiftRight_zero]

theorem selector_eq {n : Nat} (h : f.toNat / 2 ^ 21 = n) : f.extractLsb' 21 5 = BitVec.ofNat 5 n := by
  apply BitVec.eq_of_toNat_eq
  rw [toNat_selector, h, BitVec.toNat_ofNat, Nat.mod_eq_of_lt]
  have := f.isLt
  omega

/-- A selector other than those of the moves and the branch (R96). -/
theorem cop1Word_other (h : f.toNat / 2 ^ 21 ∉ [0, 2, 4, 6, 8]) :
    cop1Word f s = if 16 ≤ f.toNat / 2 ^ 21 then .refused .fpuOutsideSpec else reservedCop1 f s := by
  have hbit : (f.extractLsb' 21 5).getLsbD 4 = decide (16 ≤ f.toNat / 2 ^ 21) := by
    rw [BitVec.getLsbD, Nat.testBit_eq_decide_div_mod_eq, toNat_selector]
    have := f.isLt
    exact decide_eq_decide.mpr (by omega)
  rw [← toNat_selector] at h
  unfold cop1Word
  split
  case h_6 => simp only [hbit, decide_eq_true_eq]
  all_goals next he => simp [he] at h

theorem cop1Move_refused {m : String} (h : f.toNat % 2 ^ 11 ≠ 0) (k : Reg → Reg → Result) :
    cop1Move m f k = .refused (.unusedFieldBits m) := by
  rw [cop1Move, if_neg]
  intro he
  exact h (by rw [← toNat_unused, he]; rfl)

theorem cop1Branch_reserved (h : 4 ≤ f.toNat / 2 ^ 16 % 32) : cop1Branch f s = reservedCop1 f s := by
  rw [← toNat_kind] at h
  unfold cop1Branch
  simp only
  split
  case h_5 => rfl
  all_goals next he => simp [he] at h

end

/-- Settles O39: the word of each move and branch has its fields where the decoder of coprocessor 1 looks, and the
other words are those of the other selectors. -/
theorem coprocessorOneMoves : Obligations.CoprocessorOneMoves := by
  intro s hf
  refine ⟨fun rt rd => ⟨?_, ?_, ?_, ?_, ?_, ?_, ?_⟩, fun sense o => ?_, fun f => ⟨?_, ?_, ?_⟩⟩
  · exact setsReg_of_writeReg (exec_mfc1 hf rt rd)
  · exact ⟨_, exec_mtc1 hf rt rd, by simp [fgr_setFgr], (frame_refl.setFgr (by simp) _).advance,
      goesOn_advance s (by simp) (by simp) (by simp)⟩
  · exact setsReg_of_writeReg (exec_cfc1 hf rt 0#5)
  · exact setsReg_of_writeReg (exec_cfc1 hf rt 31#5)
  · exact ⟨_, exec_ctc1 hf rt 31#5, by simp, (frame_refl.setFcr (by simp) _).advance,
      goesOn_advance s (by simp) (by simp) (by simp)⟩
  · intro hrd
    exact ⟨_, exec_ctc1 hf rt rd, (frame_refl.setFcr (by simp [hrd]) _).advance,
      goesOn_advance s (by simp) (by simp) (by simp)⟩
  · exact ⟨_, exec_cfc1 hf rt rd, ((frame_refl.consume (by simp)).setReg (by simp) _).advance,
      goesOn_advance s (by simp) (by simp) (by simp)⟩
  · intro taken k
    have hx := exec_bc1 hf sense o
    have hxl := exec_bc1l hf sense o
    rw [fpCondition_eq] at hx hxl
    refine ⟨fun hs => ⟨?_, ?_⟩, fun hs => ⟨hx.trans (notInSlot_refused hs _), hxl.trans (notInSlot_refused hs _)⟩⟩
    · obtain ⟨t, ht, hgo, -, hfr⟩ := result_of_branchIf hx hs rfl rfl frame_refl
      exact ⟨t, ht, hgo, hfr⟩
    · obtain ⟨t, ht, htaken, hpass, -, hfr⟩ := result_of_branchLikelyIf hxl hs rfl rfl frame_refl
      exact ⟨t, ht, htaken, hpass, hfr⟩
  · intro m hm hu
    rw [exec_cop1 hf, cop1Word]
    simp only [List.mem_cons, Prod.mk.injEq, List.not_mem_nil, or_false] at hm
    rcases hm with ⟨h, rfl⟩ | ⟨h, rfl⟩ | ⟨h, rfl⟩ | ⟨h, rfl⟩ <;> rw [selector_eq h] <;>
      exact cop1Move_refused hu _
  · intro h
    refine traps_of_raise ?_
    rw [exec_cop1 hf]
    rcases h with h | ⟨h8, hk⟩
    · rw [cop1Word_other, if_neg, reservedCop1]
      · simp only [List.mem_cons, List.not_mem_nil, or_false] at h
        omega
      · simp only [List.mem_cons, List.not_mem_nil, or_false] at h ⊢
        omega
    · rw [cop1Word, selector_eq h8]
      exact cop1Branch_reserved hk
  · intro h
    rw [exec_cop1 hf, cop1Word_other, if_pos h]
    simp only [List.mem_cons, List.not_mem_nil, or_false]
    omega

/-! ### Bytes and words of an access -/

theorem byteAddr_zero (a : Word) : byteAddr a 0 = a := by simp [byteAddr]

theorem byteAddr_byteAddr (a : Word) (m k : Nat) : byteAddr (byteAddr a m) k = byteAddr a (m + k) := by
  simp [byteAddr, BitVec.add_assoc, BitVec.ofNat_add]

theorem byteAddr_ne (a : Word) {j k : Nat} (hj : j < 2 ^ 32) (hk : k < 2 ^ 32) (h : j ≠ k) :
    byteAddr a j ≠ byteAddr a k := by
  intro e
  have he : BitVec.ofNat 32 j = BitVec.ofNat 32 k := by simpa [byteAddr] using e
  have hn := congrArg BitVec.toNat he
  rw [BitVec.toNat_ofNat, BitVec.toNat_ofNat, Nat.mod_eq_of_lt hj, Nat.mod_eq_of_lt hk] at hn
  exact h hn

/-- The first unbacked byte of a run that is cut in two is that of the first part, else of the second. -/
theorem firstUnbacked_add (p : Params) (a : Word) (m n : Nat) :
    Params.firstUnbacked p a (m + n) =
      (Params.firstUnbacked p a m).or (Params.firstUnbacked p (byteAddr a m) n) := by
  have h : (List.range n).map (byteAddr (byteAddr a m)) = (List.range n).map fun k => byteAddr a (m + k) :=
    List.map_congr_left fun k _ => byteAddr_byteAddr a m k
  rw [Params.firstUnbacked, List.range_add, List.map_append, List.find?_append, List.map_map]
  rw [Params.firstUnbacked, Params.firstUnbacked, h]
  rfl

/-- The bytes that the model stores are those of `storedByte` (R64). -/
theorem byteAt_eq_storedByte (s : State) (n : Nat) (w : Word) (k : Nat) :
    byteAt s.params.bigEndian n w k = storedByte s n w k := by
  apply BitVec.eq_of_toNat_eq
  simp [byteAt, storedByte, Nat.shiftRight_eq_div_pow, pow_mul]

/-- Backed accesses of which one races stop at one that does (R74). -/
theorem accessing_some_race {s : State} {new : List Access} (k : State → Result)
    (hs : s.params.needsSync = true)
    (hb : ∀ x ∈ new, Params.firstUnbacked s.params x.addr x.size = none)
    (hr : ∃ x ∈ new, racing s x) :
    ∃ y ∈ new, racing s y ∧ s.accessing new k = .fault (.memoryRace y.addr) := by
  cases hf : s.firstRace new with
  | none =>
    obtain ⟨x, hx, hrx⟩ := hr
    rw [State.firstRace, if_pos hs, List.find?_eq_none] at hf
    exact absurd ((races_iff s x).mpr hrx) (hf x hx)
  | some y =>
    have hy : new.find? s.races = some y := by rwa [State.firstRace, if_pos hs] at hf
    refine ⟨y, List.mem_of_find?_eq_some hy, (races_iff s y).mp (List.find?_some hy), ?_⟩
    unfold State.accessing
    rw [(findSome_unbacked s new).mpr hb]
    simp only [hf]

theorem accessing_unbacked {s : State} {new : List Access} {b : Word} (k : State → Result)
    (h : new.findSome? (fun x => Params.firstUnbacked s.params x.addr x.size) = some b) :
    s.accessing new k = raise (.busError b) s := by
  unfold State.accessing
  rw [h]

/-! ### The loads and stores of coprocessor 1 -/

/-- The word accesses of a coprocessor 1 load or store of `n` bytes at `a`. -/
def wordAccesses (kind : AccessKind) (a : Word) (n : Nat) : List Access :=
  (List.range (n / 4)).map fun k => ⟨.scalar, kind, byteAddr a (4 * k), 4, []⟩

theorem wordAccesses_four (kind : AccessKind) (a : Word) : wordAccesses kind a 4 = scalarAccess kind a 4 := by
  simp [wordAccesses, scalarAccess, byteAddr_zero]

theorem wordAccesses_eight (kind : AccessKind) (a : Word) : wordAccesses kind a 8 = doubleAccess kind a := by
  simp [wordAccesses, doubleAccess, scalarAccess, byteAddr, List.range_succ]

theorem findSome_wordAccesses_four (p : Params) (kind : AccessKind) (a : Word) :
    (wordAccesses kind a 4).findSome? (fun x => Params.firstUnbacked p x.addr x.size) =
      Params.firstUnbacked p a 4 := by
  cases h : Params.firstUnbacked p a 4 <;> simp [wordAccesses_four, scalarAccess, h]

theorem findSome_wordAccesses_eight (p : Params) (kind : AccessKind) (a : Word) :
    (wordAccesses kind a 8).findSome? (fun x => Params.firstUnbacked p x.addr x.size) =
      Params.firstUnbacked p a 8 := by
  rw [firstUnbacked_add p a 4 4, wordAccesses_eight]
  change _ = (Params.firstUnbacked p a 4).or (Params.firstUnbacked p (a + 4#32) 4)
  cases h : Params.firstUnbacked p a 4 <;> cases h' : Params.firstUnbacked p (a + 4#32) 4 <;>
    simp [doubleAccess, scalarAccess, h, h']

/-- The address error of a load or of a store (R436). -/
def addressError (kind : AccessKind) (a : Word) : Exception :=
  match kind with
  | .read => .addressErrorLoad a
  | .write => .addressErrorStore a

/-- The instruction makes the word accesses of `n` bytes at `a`, after the check of their alignment. -/
def Accesses (i : Instr) (s : State) (kind : AccessKind) (a : Word) (n : Nat) (k : State → Result) : Prop :=
  exec i s = if misaligned a n then raise (addressError kind a) s else s.accessing (wordAccesses kind a n) k

section
variable {i : Instr} {s : State} {kind : AccessKind} {a : Word} {n : Nat} {k : State → Result}

theorem Accesses.ok (h : Accesses i s kind a n k) (ha : a.toNat % n = 0)
    (hacc : accessible s (wordAccesses kind a n)) : exec i s = k (s.record (wordAccesses kind a n)) := by
  rw [h, misaligned_eq_false.mpr ha, if_neg (by simp), accessing_ok hacc]

theorem Accesses.misaligned (h : Accesses i s kind a n k) (ha : a.toNat % n ≠ 0) :
    traps i s (addressError kind a) :=
  traps_of_raise (by rw [h, if_pos (misaligned_eq_true.mpr ha)])

/-- The bytes of the accesses are the `n` bytes from `a`. -/
theorem findSome_wordAccesses (hn : n = 4 ∨ n = 8) (p : Params) (kind : AccessKind) (a : Word) :
    (wordAccesses kind a n).findSome? (fun x => Params.firstUnbacked p x.addr x.size) =
      Params.firstUnbacked p a n := by
  rcases hn with rfl | rfl
  · exact findSome_wordAccesses_four p kind a
  · exact findSome_wordAccesses_eight p kind a

theorem Accesses.unbacked (h : Accesses i s kind a n k) (hn : n = 4 ∨ n = 8) (ha : a.toNat % n = 0) {b : Word}
    (hb : Params.firstUnbacked s.params a n = some b) : traps i s (.busError b) := by
  refine traps_of_raise ?_
  rw [h, misaligned_eq_false.mpr ha, if_neg (by simp)]
  exact accessing_unbacked k ((findSome_wordAccesses hn _ _ _).trans hb)

theorem Accesses.races (h : Accesses i s kind a n k) (hn : n = 4 ∨ n = 8) (ha : a.toNat % n = 0)
    (hb : Params.firstUnbacked s.params a n = none) (hs : s.params.needsSync = true) {x : Access}
    (hx : x ∈ wordAccesses kind a n) (hr : racing s x) :
    ∃ y ∈ wordAccesses kind a n, racing s y ∧ exec i s = .fault (.memoryRace y.addr) := by
  rw [h, misaligned_eq_false.mpr ha, if_neg (by simp)]
  exact accessing_some_race k hs
    ((findSome_unbacked s _).mp ((findSome_wordAccesses hn _ _ _).trans hb)) ⟨x, hx, hr⟩

end

theorem onDoubleword_even {rt : Reg} (h : rt.toNat % 2 = 0) (a : Word) (e : Exception) (s : State)
    (k : Result) : onDoubleword rt a e s k = if misaligned a 8 then raise e s else k := by
  have hb : rt.getLsbD 0 = false := by
    rw [BitVec.getLsbD, Nat.testBit_zero, h]
    rfl
  rw [onDoubleword, hb, if_neg (by simp)]

theorem onDoubleword_odd {rt : Reg} (h : rt.toNat % 2 ≠ 0) (a : Word) (e : Exception) (s : State)
    (k : Result) : onDoubleword rt a e s k = .refused .fpuOddPair := by
  have hb : rt.getLsbD 0 = true := by
    rw [BitVec.getLsbD, Nat.testBit_zero]
    simpa using h
  rw [onDoubleword, hb, if_pos rfl]

section
variable {s : State} (hf : s.params.hasFpu = true) (rt : Reg) (o : BitVec 16) (base : Reg)
include hf

theorem accesses_lwc1 : Accesses (.lwc1 rt o base) s .read (s.effAddr base o) 4 fun t =>
    .next (t.setFgr rt (s.load (s.effAddr base o) 4)).advance := by
  rw [Accesses, wordAccesses_four]
  exact cop1Instr_ok hf _

theorem accesses_swc1 : Accesses (.swc1 rt o base) s .write (s.effAddr base o) 4 fun t =>
    .next (t.store (s.effAddr base o) 4 (s.fgr rt)).advance := by
  rw [Accesses, wordAccesses_four]
  exact cop1Instr_ok hf _

theorem accesses_ldc1 (hrt : rt.toNat % 2 = 0) :
    Accesses (.ldc1 rt o base) s .read (s.effAddr base o) 8 fun t =>
      .next ((t.setFgr rt (s.load (lowWordAddr s.params.bigEndian (s.effAddr base o)) 4)).setFgr (rt + 1#5)
        (s.load (highWordAddr s.params.bigEndian (s.effAddr base o)) 4)).advance := by
  rw [Accesses, wordAccesses_eight]
  exact (cop1Instr_ok hf _).trans (onDoubleword_even hrt ..)

theorem accesses_sdc1 (hrt : rt.toNat % 2 = 0) :
    Accesses (.sdc1 rt o base) s .write (s.effAddr base o) 8 fun t =>
      .next ((t.store (lowWordAddr s.params.bigEndian (s.effAddr base o)) 4 (s.fgr rt)).store
        (highWordAddr s.params.bigEndian (s.effAddr base o)) 4 (s.fgr (rt + 1#5))).advance := by
  rw [Accesses, wordAccesses_eight]
  exact (cop1Instr_ok hf _).trans (onDoubleword_even hrt ..)

end

/-- Each of the four instructions makes its word accesses, the doubleword forms with an even register. -/
theorem accesses_of_forms {s : State} (hf : s.params.hasFpu = true) (rt : Reg) (o : BitVec 16) (base : Reg)
    {i : Instr} {kind : AccessKind} {n : Nat}
    (h : (i, kind, n) ∈ [(Instr.lwc1 rt o base, AccessKind.read, 4), (Instr.swc1 rt o base, .write, 4),
      (Instr.ldc1 rt o base, .read, 8), (Instr.sdc1 rt o base, .write, 8)])
    (heven : n = 8 → rt.toNat % 2 = 0) :
    (n = 4 ∨ n = 8) ∧ ∃ k, Accesses i s kind (s.effAddr base o) n k := by
  simp only [List.mem_cons, Prod.mk.injEq, List.not_mem_nil, or_false] at h
  rcases h with ⟨rfl, rfl, rfl⟩ | ⟨rfl, rfl, rfl⟩ | ⟨rfl, rfl, rfl⟩ | ⟨rfl, rfl, rfl⟩
  · exact ⟨.inl rfl, _, accesses_lwc1 hf rt o base⟩
  · exact ⟨.inl rfl, _, accesses_swc1 hf rt o base⟩
  · exact ⟨.inr rfl, _, accesses_ldc1 hf rt o base (heven rfl)⟩
  · exact ⟨.inr rfl, _, accesses_sdc1 hf rt o base (heven rfl)⟩

theorem byte_store_word (s : State) (a : Word) (w : Word) {k : Nat} (h : Memory.wf s.mem = true) (hk : k < 4) :
    (s.store a 4 w).byte (byteAddr a k) = storedByte s 4 w k := by
  rw [byte_store_same s a 4 w h le_rfl hk, byteAt_eq_storedByte]

section
variable (be : Bool) (a : Word)

/-- The two words of a doubleword are its first and its last four bytes, in the order of R64. -/
theorem lowWordAddr_eq : lowWordAddr be a = byteAddr a (if be then 4 else 0) := by
  cases be <;> simp [lowWordAddr, byteAddr]

theorem highWordAddr_eq : highWordAddr be a = byteAddr a (if be then 0 else 4) := by
  cases be <;> simp [highWordAddr, byteAddr]

theorem within_lowWord {b : Word} (h : within (lowWordAddr be a) 4 b) : within a 8 b := by
  obtain ⟨k, hk, rfl⟩ := h
  rw [lowWordAddr_eq, byteAddr_byteAddr]
  exact ⟨_, by split <;> omega, rfl⟩

theorem within_highWord {b : Word} (h : within (highWordAddr be a) 4 b) : within a 8 b := by
  obtain ⟨k, hk, rfl⟩ := h
  rw [highWordAddr_eq, byteAddr_byteAddr]
  exact ⟨_, by split <;> omega, rfl⟩

theorem lowWord_ne_highWord {j k : Nat} (hj : j < 4) (hk : k < 4) :
    byteAddr (lowWordAddr be a) j ≠ byteAddr (highWordAddr be a) k := by
  rw [lowWordAddr_eq, highWordAddr_eq, byteAddr_byteAddr, byteAddr_byteAddr]
  cases be
  · exact byteAddr_ne a (by simp; omega) (by simp; omega) (by simp; omega)
  · exact byteAddr_ne a (by simp; omega) (by simp; omega) (by simp; omega)

end

/-- Settles O40: each instruction makes the accesses of `wordAccesses`, whose bytes are those of the item. -/
theorem coprocessorOneMemory : Obligations.CoprocessorOneMemory := by
  intro rt o base s a low high mem even forms hf
  refine ⟨fun ha hacc => ?_, fun hwf ha hacc => ?_, fun he ha hacc => ?_, fun he hwf ha hacc => ?_,
    fun he => ⟨?_, ?_⟩, fun i kind n hform heven => ?_⟩
  · refine ⟨_, (accesses_lwc1 hf rt o base).ok ha hacc, ?_, recorded_record s _,
      ((frame_refl.recording rfl _).setFgr (by simp) _).advance, goesOn_advance s (by simp) (by simp) (by simp)⟩
    rw [fgr_advance, fgr_setFgr, if_pos rfl, loaded_word]
  · refine ⟨_, (accesses_swc1 hf rt o base).ok ha hacc, fun k hk => byte_store_word _ a _ hwf hk,
      recorded_record s _, ((frame_refl.recording rfl _).store (fun _ h => h) _).advance,
      goesOn_advance s (by simp) (by simp) (by simp)⟩
  · refine ⟨_, (accesses_ldc1 hf rt o base he).ok ha hacc, ?_, ?_, recorded_record s _,
      (((frame_refl.recording rfl _).setFgr (by simp) _).setFgr (by simp) _).advance,
      goesOn_advance s (by simp) (by simp) (by simp)⟩
    · have hne : rt ≠ rt + 1#5 := by bv_omega
      rw [fgr_advance, fgr_setFgr, if_neg hne, fgr_setFgr, if_pos rfl, loaded_word]
      rfl
    · rw [fgr_advance, fgr_setFgr, if_pos rfl, loaded_word]
      rfl
  · refine ⟨_, (accesses_sdc1 hf rt o base he).ok ha hacc, fun k hk => ⟨?_, ?_⟩, recorded_record s _,
      (((frame_refl.recording rfl _).store (fun _ => within_lowWord _ a) _).store
        (fun _ => within_highWord _ a) _).advance, goesOn_advance s (by simp) (by simp) (by simp)⟩
    · exact (byte_store_other _ _ _ _ _ fun j hj => lowWord_ne_highWord s.params.bigEndian a hk hj).trans
        (byte_store_word _ _ _ hwf hk)
    · exact byte_store_word _ _ _ (wf_store _ _ _ hwf) hk
  · exact (cop1Instr_ok hf _).trans (onDoubleword_odd he ..)
  · exact (cop1Instr_ok hf _).trans (onDoubleword_odd he ..)
  · obtain ⟨hn, k, hx⟩ := accesses_of_forms hf rt o base hform heven
    refine ⟨fun ha => ?_, fun b ha hb => hx.unbacked hn ha hb, fun ha hb hs x hmem hr => hx.races hn ha hb hs hmem hr⟩
    cases kind <;> exact hx.misaligned ha

/-! ### The fields of a T0 configuration word as numbers (R401) -/

theorem ofBits_eq_sum {n : Nat} (b : Fin n → Bool) :
    Nat.ofBits b = ((List.finRange n).map fun i => if b i then 2 ^ i.val else 0).sum := by
  induction n with
  | zero => rfl
  | succ n ih =>
    have hstep : ∀ i ∈ List.finRange n, (if b i.succ then 2 ^ (i.val + 1) else 0) =
        2 * if b i.succ then 2 ^ i.val else 0 := fun i _ => by
      split <;> omega
    rw [Nat.ofBits_succ, ih, List.finRange_succ, List.map_cons, List.sum_cons, List.map_map]
    simp only [Function.comp_def, Fin.val_succ, List.map_congr_left hstep, List.sum_map_mul_left]
    cases b 0 <;> simp [add_comm]

theorem toNat_gather {n : Nat} (c : Word) (places : Vector (Fin 32) n) :
    (gather c places).toNat = field c places := by
  rw [gather, BitVec.toNat_ofFnLE, ofBits_eq_sum, field]

/-- Table 10 (R403). -/
theorem logicUnit_eq_luOut (l : T0Layout) (c a b : Word) :
    logicUnit (gather c l.lufunc) a b = luOut l c a b := by
  rw [luOut, ← toNat_gather]
  cases gather c l.lufunc with
  | ofFin g => fin_cases g <;> rfl

/-- Table 13 (R412). -/
theorem t0WriteEnable_eq_writesElem (l : T0Layout) (c : Word) (v : BitVec 33) :
    t0WriteEnable (gather c l.wcond) v = writesElem l c v.toInt := by
  rw [writesElem, ← toNat_gather]
  cases gather c l.wcond with
  | ofFin g => fin_cases g <;> rfl

/-! ### The operands that decide the write of an element -/

theorem logicReads_fst (l : T0Layout) (c : Word) :
    (logicReads (gather c l.lufunc)).1 = true ↔ field c l.lufunc ∉ luSkipsA := by
  rw [← toNat_gather]
  cases gather c l.lufunc with
  | ofFin g => fin_cases g <;> decide

theorem logicReads_snd (l : T0Layout) (c : Word) :
    (logicReads (gather c l.lufunc)).2 = true ↔ field c l.lufunc ∉ luSkipsB := by
  rw [← toNat_gather]
  cases gather c l.lufunc with
  | ofFin g => fin_cases g <;> decide

theorem wcond_unconditional (l : T0Layout) (c : Word) :
    gather c l.wcond = 0b000#3 ∨ gather c l.wcond = 0b100#3 ↔ field c l.wcond ∈ [0, 4] := by
  rw [← toNat_gather]
  cases gather c l.wcond with
  | ofFin g => fin_cases g <;> decide

/-- The model's name for a fixed-point operation. -/
def fxKind : Fx → FxKind
  | .add => .add
  | .sub => .sub
  | .mul => .mul

theorem t0DecidedBy_iff (k : Fx) (l : T0Layout) (c : Word) :
    ((t0DecidedBy (fxKind k) (t0Fields l c)).1 = true ↔ (decides k l c).1) ∧
      ((t0DecidedBy (fxKind k) (t0Fields l c)).2 = true ↔ (decides k l c).2) := by
  have hw : (t0Fields l c).wcond = 0b000#3 ∨ (t0Fields l c).wcond = 0b100#3 ↔ field c l.wcond ∈ [0, 4] :=
    wcond_unconditional l c
  have hA := logicReads_fst l c
  have hB := logicReads_snd l c
  by_cases h : field c l.wcond ∈ [0, 4]
  · rw [t0DecidedBy, if_pos (hw.mpr h)]
    cases k <;> simp [decides, h]
  · rw [t0DecidedBy, if_neg (mt hw.mp h)]
    cases k <;> simp [decides, h, addOutReads, fxKind, t0Fields, flag, hA, hB]

/-! ### ADDOUT as a number (R405, R414) -/

theorem sham_eq_fxSham (c : Word) : sham c = fxSham c := low5_eq_shiftCount c

theorem twoPow_eq_ofInt (n : Nat) : BitVec.twoPow 32 n = BitVec.ofInt 32 (2 ^ n) := by
  have h : ((2 : Int) ^ n) = ((2 ^ n : Nat) : Int) := by push_cast; rfl
  rw [h, BitVec.ofInt_natCast]
  apply BitVec.eq_of_toNat_eq
  rw [BitVec.toNat_twoPow, BitVec.toNat_ofNat]

theorem shiftLeft_eq_ofInt (x : Word) (n : Nat) : x <<< n = BitVec.ofInt 32 (x.toInt * 2 ^ n) := by
  rw [BitVec.shiftLeft_eq_mul_twoPow, twoPow_eq_ofInt, BitVec.ofInt_mul, BitVec.ofInt_toInt]

/-- The left shifter (R383): its round bit stands just below the bits shifted. -/
theorem fxShl_eq_ofInt (x : Word) (n : Nat) (nr : Bool) :
    fxShl x n nr = BitVec.ofInt 32 (x.toInt * 2 ^ n + if nr = false ∧ 0 < n then 2 ^ (n - 1) else 0) := by
  unfold fxShl
  by_cases h : nr = false ∧ 0 < n
  · have hdisjoint : x <<< n &&& 1#32 <<< (n - 1) = 0#32 := by
      ext i hi
      simp
      omega
    rw [if_pos (by simpa using h), if_pos h, BitVec.ofInt_add, ← shiftLeft_eq_ofInt, ← twoPow_eq_ofInt,
      BitVec.twoPow_eq, BitVec.add_eq_or_of_and_eq_zero _ _ hdisjoint]
  · rw [if_neg (by simpa using h), if_neg h, add_zero, shiftLeft_eq_ofInt]

theorem t0Shl_eq_shlOut (l : T0Layout) (c a b : Word) :
    t0Shl (t0Fields l c) a (luOut l c a b) = shlOut l c a b := by
  rw [t0Shl, fxShl_eq_ofInt, shlOut, low5_eq_shiftCount, sham_eq_fxSham]
  rfl

theorem toInt_extend33 (u : Bool) (w : Word) : (extend33 u w).toInt = number u w := by
  cases u
  · exact BitVec.toInt_signExtend_of_le (by omega)
  · have hlt := w.isLt
    have hn : (w.setWidth 33).toNat = w.toNat := by
      rw [BitVec.toNat_setWidth, Nat.mod_eq_of_lt (by omega)]
    change (w.setWidth 33).toInt = (w.toNat : Int)
    rw [BitVec.toInt_eq_toNat_of_lt (by omega), hn]

theorem toInt_mulInput (u : Bool) (w : Word) : (mulInput u w).toInt = halfNumber u w := by
  cases u
  · change ((w.setWidth 16).signExtend 33).toInt = w.toInt.bmod (2 ^ 16)
    rw [BitVec.toInt_signExtend_of_le (by omega), BitVec.toInt_setWidth, BitVec.toInt_eq_toNat_bmod,
      Int.bmod_bmod_of_dvd (by norm_num)]
  · have hn : ((w.setWidth 16).setWidth 33).toNat = w.toNat % 2 ^ 16 := by
      rw [BitVec.toNat_setWidth, BitVec.toNat_setWidth, Nat.mod_eq_of_lt (by omega)]
    change ((w.setWidth 16).setWidth 33).toInt = ((w.toNat % 2 ^ 16 : Nat) : Int)
    rw [BitVec.toInt_eq_toNat_of_lt (by omega), hn]

theorem toInt_fxRound (c : Word) : (fxRound (fxSham c) (fxShlnr c)).toInt = half c := by
  rw [half, sham_eq_fxSham]
  have hlt : fxSham c < 32 := (c.extractLsb' 0 5).isLt
  unfold fxRound
  by_cases h : c.getLsbD 9 = false ∧ 0 < fxSham c
  · have hs : (1#33 <<< (fxSham c - 1)).toNat = 2 ^ (fxSham c - 1) := by
      rw [← BitVec.twoPow_eq, BitVec.toNat_twoPow_of_lt (by omega)]
    have hp : 2 ^ (fxSham c - 1) < 2 ^ 32 := Nat.pow_lt_pow_right (by omega) (by omega)
    rw [if_pos h, if_pos (by simpa [fxShlnr] using h), BitVec.toInt_eq_toNat_of_lt (by omega), hs]
    push_cast
    rfl
  · rw [if_neg h, if_neg (by simpa [fxShlnr] using h)]
    rfl

theorem toInt_t0AddOut (k : Fx) (l : T0Layout) (c a b : Word) :
    (t0AddOut (fxKind k) (t0Fields l c) a b).toInt = addOut k l c a b := by
  have hlu : logicUnit (t0Fields l c).lufunc a b = luOut l c a b := logicUnit_eq_luOut l c a b
  have hadda : (extend33 (t0Fields l c).au (shlOut l c a b)).toInt = number (flag c l.au) (shlOut l c a b) :=
    toInt_extend33 _ _
  have haddb : (t0AddB (t0Fields l c) (luOut l c a b)).toInt = addB l c a b := toInt_extend33 _ _
  have halone : ((t0Fields l c).shlv || (t0Fields l c).shrv) = (flag c l.shlv || flag c l.shrv) := rfl
  unfold t0AddOut addOut
  simp only [hlu, t0Shl_eq_shlOut, halone]
  cases k with
  | add =>
    cases flag c l.shlv || flag c l.shrv
    · exact (BitVec.toInt_add ..).trans (congrArg₂ (fun x y => (x + y).bmod (2 ^ 33)) hadda haddb)
    · exact hadda
  | sub =>
    cases flag c l.shlv || flag c l.shrv
    · exact (BitVec.toInt_sub ..).trans (congrArg₂ (fun x y => (x - y).bmod (2 ^ 33)) hadda haddb)
    · exact hadda
  | mul =>
    change (mulInput (flag c l.au) a * mulInput (flag c l.bu) b + fxRound (fxSham c) (fxShlnr c)).toInt = _
    rw [BitVec.toInt_add, BitVec.toInt_mul, Int.bmod_add_bmod, toInt_mulInput, toInt_mulInput, toInt_fxRound]

/-- The write enable of an element (R412). -/
theorem write_t0Element (k : Fx) (l : T0Layout) (c : Word) (ab : Word × Word) :
    (t0Element (fxKind k) (t0Fields l c) ab).write = (t0Elem k l c ab).2 := by
  rw [t0Elem, ← toInt_t0AddOut]
  exact t0WriteEnable_eq_writesElem l c _

/-! ### The loads that the elements of a written register come from (R75) -/

section
variable {i : Instr} {s t u : State} {vw : VReg}

theorem mem_waitsOf_setElemsWhere (h0 : vw ≠ 0#5) (hk : vw.toNat < Config.nvreg) (n : Nat) (w : Elem → Bool)
    (g : Elem → Word) (d : Waits) (e : Elem) (j : Nat) :
    j ∈ (s.setElemsWhere vw n w g d).waitsOf vw e ↔
      if e.val < n then j ∈ d e ∨ (w e = false ∧ j ∈ s.waitsOf vw e) else j ∈ s.waitsOf vw e := by
  rw [waitsOf_setElemsWhere_same s vw n w g d e h0 hk]
  split
  · cases w e <;> simp [List.mem_union_iff]
  · rfl

/-- A write of the first `vlr` elements that adds no loads to those of the register before it. -/
theorem waitsAre_of_setElems (hr : vecReady i s) (hv : vw ∈ i.vregs) {g : Elem → Word} {d d' : Waits}
    (hu : u.waits = s.waits) (ht : t.waits = (u.setElems vw s.vlr.toNat g d').waits)
    (hd : ∀ e j, j ∈ d' e ↔ j ∈ d e) : waitsAre s t vw d := by
  intro h0 e j
  rw [waitsOf_congr ht, waitsOf_setElems_same u vw _ g d' e h0 (hr.1.2 vw hv), waitsOf_congr hu]
  split
  · exact hd e j
  · rfl

theorem ne_withTrap (ht : t.trap = none) (x : Exception) : t ≠ withTrap s x := by
  intro h
  have hx := withTrap_trap_isSome s x
  rw [← h, ht] at hx
  simp at hx

end

/-! ### Computed elements -/

theorem mem_allWaits (f : Form) (s : State) (x y : BitVec 5) (e : Elem) (j : Nat) :
    j ∈ (formPairs f s x y).waits e ↔ j ∈ f.allWaits s x y e := by
  rw [mem_waits, waitsA_formPairs, waitsB_formPairs, Form.allWaits, List.mem_append]

/-- The instructions that compute every element from both operands. -/
theorem waitsAre_computed {c : Form3} {f : Form}
    (hrow : (c, f) ∈ Claims.vectorResults.map (fun r => (r.1, r.2.1)) ++ overflowing.map (fun r => (r.1, r.2.1)))
    {vw : VReg} {x y : BitVec 5} {s t : State} (hr : vecReady (c vw x y) s) (h : exec (c vw x y) s = .next t) :
    waitsAre s t vw (f.allWaits s x y) := by
  rcases List.mem_append.mp hrow with hmem | hmem
  · obtain ⟨r, hin, ⟨⟩⟩ := List.mem_map.mp hmem
    obtain ⟨hx, hn⟩ := vectorResults_rows _ hin
    have ht := ((hx vw x y s).trans (vecIssue_ok hr _)).symm.trans h
    obtain rfl := Host.Outcome.next.inj ht
    exact waitsAre_of_setElems hr (hn vw x y) rfl rfl (mem_allWaits _ s x y)
  · obtain ⟨r, hin, ⟨⟩⟩ := List.mem_map.mp hmem
    obtain ⟨_, -, hx, hn⟩ := overflowing_rows _ hin
    have ht := ((hx vw x y s).trans (vecIssue_ok hr _)).symm.trans h
    obtain rfl := Host.Outcome.next.inj ht
    exact waitsAre_of_setElems hr (hn vw x y) rfl rfl (mem_allWaits _ s x y)

theorem moving_rows : ∀ r ∈ moving, ∃ z : ZeroCond, (∀ v, z.holds v = r.2.2 v) ∧
    VecRow r.1 r.2.1 fun i vw ab => vecCmov i z vw ab := by
  simp only [moving, List.forall_mem_cons, List.not_mem_nil, IsEmpty.forall_iff, implies_true, and_true]
  and_intros
  all_goals exact ⟨_, fun _ => rfl, {}⟩

theorem waitsAre_moved {c : Form3} {f : Form} {p : Int → Bool} (hrow : (c, f, p) ∈ moving) {vw : VReg}
    {x y : BitVec 5} {s t : State} (hr : vecReady (c vw x y) s) (h : exec (c vw x y) s = .next t) :
    waitsAre s t vw fun e => (f.waits s x y e).1 ++
      if p (f.operands s x y e).1.toInt then (f.waits s x y e).2 else s.waitsOf vw e := by
  obtain ⟨z, hz, hx, hn⟩ := moving_rows _ hrow
  have ht := ((hx vw x y s).trans (vecIssue_ok hr _)).symm.trans h
  obtain rfl := Host.Outcome.next.inj ht
  intro h0 e j
  have hw := mem_waitsOf_setElemsWhere (s := s) h0 (hr.1.2 vw (hn vw x y)) s.vlr.toNat
    (fun e => z.holds ((formPairs f s x y).val e).1.toInt) (fun e => ((formPairs f s x y).val e).2)
    ((formPairs f s x y).waitsOn fun e => (true, z.holds ((formPairs f s x y).val e).1.toInt)) e j
  refine hw.trans ?_
  rw [mem_waitsOn, waitsA_formPairs, waitsB_formPairs, val_formPairs, hz]
  split
  · cases hp : p (f.operands s x y e).1.toInt <;> simp [hp]
  · rfl

/-! ### Fixed-point elements -/

theorem fixed_rows : ∀ r ∈ fixed, ∀ (vw : VReg) (x y : BitVec 5) (rd : Reg) (s : State),
    exec (r.1 vw x y rd) s = fixedPoint (r.1 vw x y rd) (fxKind r.2.2) vw (formPairs r.2.1 s x y) rd s ∧
      vw ∈ (r.1 vw x y rd).vregs := by
  simp only [fixed, List.forall_mem_cons, List.not_mem_nil, IsEmpty.forall_iff, implies_true, and_true]
  and_intros
  all_goals exact fun vw x y rd s => ⟨rfl, by simp [Instr.vregs]⟩

theorem fxArch_next {k : FxKind} {vw : VReg} {ab : Pairs} {c : Word} {n : Nat} {s t : State}
    (h : fxArch k vw ab c n s = .next t) : ∃ g, t.waits = (s.setElems vw n g ab.waits).waits := by
  unfold fxArch at h
  split at h
  · simp at h
  · split at h
    · simp at h
    · obtain rfl := Host.Outcome.next.inj h
      exact ⟨_, rfl⟩

theorem fxT0_next {l : T0Layout} {k : FxKind} {vw : VReg} {ab : Pairs} {c : Word} {n : Nat} {s t : State}
    (h : fxT0 l k vw ab c n s = .next t) :
    ∃ g, t.waits = (s.setElemsWhere vw n (fun e => (t0Element k (t0Fields l c) (ab.val e)).write) g
      (ab.waitsOn fun e => if (t0Element k (t0Fields l c) (ab.val e)).write then (true, true)
        else t0DecidedBy k (t0Fields l c))).waits := by
  unfold fxT0 at h
  split at h
  · simp at h
  · split at h
    · simp at h
    · obtain rfl := Host.Outcome.next.inj h
      refine ⟨fun e => (t0Element k (t0Fields l c) (ab.val e)).clipout, ?_⟩
      rw [advance_waits, consume_waits, orVsat_waits]

section
variable {c : BitVec 5 → BitVec 5 → BitVec 5 → BitVec 5 → Instr} {f : Form} {k : Fx} {vw : VReg}
  {x y : BitVec 5} {rd : Reg} {s t : State}

theorem waitsAre_fixed (hrow : (c, f, k) ∈ fixed) (hr : vecReady (c vw x y rd) s)
    (h : exec (c vw x y rd) s = .next t) (h0 : s.params.t0 = none) : waitsAre s t vw (f.allWaits s x y) := by
  obtain ⟨hx, hn⟩ := fixed_rows _ hrow vw x y rd s
  rw [hx, fixedPoint, vecIssue_ok hr, h0] at h
  obtain ⟨g, ht⟩ := fxArch_next h
  exact waitsAre_of_setElems hr hn rfl ht (mem_allWaits f s x y)

theorem mem_waitsOf_t0 (hrow : (c, f, k) ∈ fixed) (hr : vecReady (c vw x y rd) s)
    (h : exec (c vw x y rd) s = .next t) {l : T0Layout} (hl : s.params.t0 = some l) (h0 : vw ≠ 0#5) (e : Elem)
    (j : Nat) : j ∈ t.waitsOf vw e ↔
      if s.vlr.toNat ≤ e.val then j ∈ s.waitsOf vw e
      else if (t0Elem k l (s.reg rd) (f.operands s x y e)).2 then j ∈ f.allWaits s x y e
      else j ∈ s.waitsOf vw e ∨ ((decides k l (s.reg rd)).1 ∧ j ∈ (f.waits s x y e).1) ∨
        ((decides k l (s.reg rd)).2 ∧ j ∈ (f.waits s x y e).2) := by
  obtain ⟨hx, hn⟩ := fixed_rows _ hrow vw x y rd s
  rw [hx, fixedPoint, vecIssue_ok hr, hl] at h
  obtain ⟨g, ht⟩ := fxT0_next h
  obtain ⟨hA, hB⟩ := t0DecidedBy_iff k l (s.reg rd)
  rw [waitsOf_congr ht, mem_waitsOf_setElemsWhere h0 (hr.1.2 vw hn), mem_waitsOn, write_t0Element,
    waitsA_formPairs, waitsB_formPairs, val_formPairs]
  by_cases hlt : e.val < s.vlr.toNat
  · rw [if_pos hlt, if_neg (Nat.not_le.mpr hlt)]
    cases (t0Elem k l (s.reg rd) (f.operands s x y e)).2
    · simp [hA, hB, or_comm]
    · simp [Form.allWaits]
  · rw [if_neg hlt, if_pos (Nat.not_lt.mp hlt)]

end

/-! ### Loaded, extracted and inserted elements -/

theorem unitLoads_rows : ∀ r ∈ unitLoads, ∃ w : Width, ∀ (vd : VReg) (rd rt : Reg) (s : State),
    exec (r.1 vd rd rt) s = unitStride (r.1 vd rd rt) vecLoad w vd rd rt s ∧ vd ∈ (r.1 vd rd rt).vregs := by
  simp only [unitLoads, List.forall_mem_cons, List.not_mem_nil, IsEmpty.forall_iff, implies_true, and_true]
  and_intros
  all_goals exact ⟨_, fun vd rd rt s => ⟨rfl, by simp [Instr.vregs]⟩⟩

theorem addressedLoads_rows : ∀ r ∈ addressedLoads, ∃ w : Width, ∀ (vd : VReg) (rd : Reg) (y : BitVec 5) (s : State),
    exec (r.1 vd rd y) s =
        addressed (r.1 vd rd y) vecLoad w vd (r.2.1.addrs s rd y) (r.2.1.waits s y) s ∧
      vd ∈ (r.1 vd rd y).vregs := by
  simp only [addressedLoads, List.forall_mem_cons, List.not_mem_nil, IsEmpty.forall_iff, implies_true, and_true]
  and_intros
  all_goals exact ⟨_, fun vd rd y s => ⟨rfl, by simp [Instr.vregs]⟩⟩

section
variable {vd : VReg} {rd : Reg} {s t : State}

theorem waitsAre_unitLoad {c : Form3} {n : Nat} {sg : Bool} (hrow : (c, n, sg) ∈ unitLoads) {rt : Reg}
    (h : exec (c vd rd rt) s = .next t) (ht : t.trap = none) :
    waitsAre s t vd fun e => [s.pending.length + e.val] := by
  obtain ⟨w, hx⟩ := unitLoads_rows _ hrow
  obtain ⟨hx, hn⟩ := hx vd rd rt s
  rcases unitStride_next (hx.symm.trans h) with ⟨x, h⟩ | ⟨hr, -, h⟩
  · exact absurd h (ne_withTrap ht x)
  · rcases vecLoad_next h with ⟨x, h⟩ | ⟨-, h⟩
    · exact absurd h (ne_withTrap ht x)
    · obtain rfl := Host.Outcome.next.inj h
      exact waitsAre_of_setElems hr hn (record_waits s _) (setReg_waits ..) fun e j => Iff.rfl

theorem waitsAre_addressedLoad {c : Form3} {f : AddrForm} {n : Nat} {sg : Bool}
    (hrow : (c, f, n, sg) ∈ addressedLoads) {y : BitVec 5} (h : exec (c vd rd y) s = .next t)
    (ht : t.trap = none) : waitsAre s t vd fun e => (s.pending.length + e.val) :: f.waits s y e := by
  obtain ⟨w, hx⟩ := addressedLoads_rows _ hrow
  obtain ⟨hx, hn⟩ := hx vd rd y s
  rcases addressed_next (hx.symm.trans h) with ⟨x, h⟩ | ⟨hr, h⟩
  · exact absurd h (ne_withTrap ht x)
  · rcases vecLoad_next h with ⟨x, h⟩ | ⟨-, h⟩
    · exact absurd h (ne_withTrap ht x)
    · obtain rfl := Host.Outcome.next.inj h
      exact waitsAre_of_setElems hr hn (record_waits s _) rfl fun e j => Iff.rfl

/-- The index of an insert or extract is the low 8 bits of `x[rd]` (R250). -/
theorem index_eq (s : State) (rd : Reg) : s.index rd = (s.reg rd).toNat % 256 := by
  rw [State.index, BitVec.toNat_setWidth]

theorem mem_waitsAt (s : State) (r : VReg) (n j : Nat) :
    j ∈ s.waitsAt r n ↔ j ∈ ((List.finRange 32).filter fun k => k.val == n).flatMap (s.waitsOf r) := by
  simp only [List.mem_flatMap, List.mem_filter, List.mem_finRange, true_and, beq_iff_eq]
  unfold State.waitsAt
  split
  · next hn =>
    constructor
    · exact fun hj => ⟨⟨n, hn⟩, rfl, hj⟩
    · rintro ⟨k, rfl, hj⟩
      exact hj
  · next hn =>
    simp only [List.not_mem_nil, false_iff, not_exists, not_and]
    rintro k rfl
    exact absurd k.isLt hn

theorem waitsAre_vextV {vt : VReg} (h : exec (.vextV vd vt rd) s = .next t) (ht : t.trap = none) :
    waitsAre s t vd fun e =>
      ((List.finRange 32).filter fun k => k.val == (s.reg rd).toNat % 256 + e.val).flatMap (s.waitsOf vt) := by
  change execVextV vd vt rd s = .next t at h
  rcases vecIssue_next h with ⟨x, h⟩ | ⟨hr, h⟩
  · exact absurd h (ne_withTrap ht x)
  · split at h
    · exact absurd (raise_next.mp h) (ne_withTrap ht _)
    · split at h
      · simp at h
      · obtain rfl := Host.Outcome.next.inj h
        refine waitsAre_of_setElems hr (by simp [Instr.vregs]) rfl rfl fun e j => ?_
        rw [mem_waitsAt, index_eq]

theorem mem_waitsOf_vinsS {rt : Reg} (h : exec (.vinsS rt vd rd) s = .next t) (ht : t.trap = none)
    (h0 : vd ≠ 0#5) (e : Elem) (j : Nat) :
    j ∈ t.waitsOf vd e ↔ e.val ≠ (s.reg rd).toNat % 256 ∧ j ∈ s.waitsOf vd e := by
  change execVinsS rt vd rd s = .next t at h
  rcases vuIssue_next h with h | h | ⟨hu, h⟩
  · exact absurd h (ne_withTrap ht _)
  · exact absurd h (ne_withTrap ht _)
  · split at h
    · exact absurd (raise_next.mp h) (ne_withTrap ht _)
    · obtain rfl := Host.Outcome.next.inj h
      have hw := mem_waitsOf_setElemsWhere (s := s) h0 (hu.2 vd (by simp [Instr.vregs])) Config.mvl
        (fun i => i.val == s.index rd) (fun _ => s.reg rt) noWaits e j
      refine hw.trans ?_
      rw [if_pos e.isLt, index_eq]
      simp [noWaits]

end

/-- Settles O53, one kind of instruction after another: each writes its register with `setElems` or
`setElemsWhere`, whose third argument says where the loads of an element come from. -/
theorem registerDependences : Obligations.RegisterDependences :=
  ⟨fun _ _ hrow _ _ _ _ _ hr h => waitsAre_computed hrow hr h,
    fun _ _ _ hrow _ _ _ _ _ hr h => waitsAre_moved hrow hr h,
    fun _ _ _ hrow _ _ _ _ _ _ hr h =>
      ⟨waitsAre_fixed hrow hr h, fun _ hl h0 e j => mem_waitsOf_t0 hrow hr h hl h0 e j⟩,
    fun _ _ _ hrow _ _ _ _ _ h ht => waitsAre_unitLoad hrow h ht,
    fun _ _ _ _ hrow _ _ _ _ _ h ht => waitsAre_addressedLoad hrow h ht,
    fun _ _ _ _ _ h ht => waitsAre_vextV h ht,
    fun _ _ _ _ _ h ht h0 e j => mem_waitsOf_vinsS h ht h0 e j⟩

end Sys2Proof.StateRules

/-! SUPPORT. The statements of the memory family: the addresses of R162 and R261, the checks of the scalar and
vector memory instructions in the order of R438, SYNC (R177), and what a vector store leaves in memory (R70). -/

namespace Sys2Proof.Safety

open Sys2Proof.Machine

section
variable {m : Touches} {s t : State}

theorem Frame.syncing (h : Frame m s t) (hr : m.record = true) (hw : m.waits = true) :
    Frame m s t.syncMemory := by
  refine h.trans ?_
  constructor <;> simp [hr, hw]

theorem Frame.storeElems (h : Frame m s t) {addrs : Addrs} {size n : Nat}
    (hb : ∀ (i : Elem) (b : Word), i.val < n → within (addrs i) size b → m.bytes b) (f : Elem → Word) :
    Frame m s (t.storeElems addrs size n f) := by
  refine h.trans ?_
  constructor
  case bytes =>
    exact fun b hn => byte_storeElems_other t addrs size n f b fun i hi k hk e => hn (hb i b hi ⟨k, hk, e⟩)
  all_goals simp

end

end Sys2Proof.Safety

namespace Sys2Proof.MemoryRules

open Sys2Proof.Machine Sys2Proof.Safety Sys2Proof.Claims Sys2Proof.Scope Sys2Proof.StateRules

/-! ### Addresses -/

/-- Settles O49: word arithmetic is arithmetic modulo 2^32. -/
theorem addressArithmetic : Obligations.AddressArithmetic := by
  intro s rd y o n e
  refine ⟨?_, ?_, ?_, ?_⟩
  · rw [State.effAddr, sextImm, BitVec.signExtend, BitVec.ofInt_add, BitVec.ofInt_toInt]
  · simp [State.unitAddrs]
  · simp [State.strideAddrs]
  · simp [State.indexAddrs]

theorem and_not_add_and (x y : Word) : (x &&& ~~~y) + (x &&& y) = x := by
  have hdisjoint : (x &&& ~~~y) &&& (x &&& y) = 0#32 := by
    ext i hi
    simp
    grind
  rw [BitVec.add_eq_or_of_and_eq_zero _ _ hdisjoint]
  ext i hi
  simp
  grind

/-- The word that holds `a` begins `a mod 4` bytes below it (R168). -/
theorem wordBase_eq_sub (a : Word) : wordBase a = a - BitVec.ofNat 32 (a.toNat % 4) := by
  have hlow : a &&& 3#32 = BitVec.ofNat 32 (a.toNat % 4) := by
    apply BitVec.eq_of_toNat_eq
    rw [BitVec.toNat_and, BitVec.toNat_ofNat (a.toNat % 4), Nat.mod_eq_of_lt (by omega)]
    exact Nat.and_two_pow_sub_one_eq_mod a.toNat 2
  rw [wordBase, ← hlow, eq_sub_iff_add_eq, and_not_add_and]

section
variable (be : Bool) (a : Word)

theorem leftStart_eq_partialStart : leftStart be a = partialStart be a := by
  cases be
  · exact wordBase_eq_sub a
  · rfl

theorem rightStart_eq_partialStart : rightStart be a = partialStart (!be) a := by
  cases be
  · rfl
  · exact wordBase_eq_sub a

theorem sub_leftKept_eq_partialCount : 4 - leftKept be a = partialCount be a := by
  cases be <;> simp [leftKept, partialCount, byteInWord]
  omega

theorem sub_rightKept_eq_partialCount : 4 - rightKept be a = partialCount (!be) a := by
  cases be <;> simp [rightKept, partialCount, byteInWord]
  omega

end

/-! ### SYNC -/

/-- With no unfinished access there is nothing to race with (R74). -/
theorem not_racing_of_pending_nil {s : State} (h : s.pending = []) (x : Access) : ¬racing s x := by
  rintro ⟨j, old, hj, -⟩
  simp [h] at hj

/-- Settles O29: `syncMemory` empties the two records, and nothing races with no unfinished access. -/
theorem syncResult : Obligations.SyncResult := fun s =>
  ⟨s.syncMemory.advance, rfl, rfl, by simp, rfl, rfl, (frame_refl.syncing rfl rfl).advance, goesOn_advance s rfl rfl rfl,
    fun _ hb => accessible_of_no_race hb fun x _ => not_racing_of_pending_nil rfl x⟩

/-! ### The accesses of the scalar memory instructions -/

/-- The instruction checks the alignment of the effective address `a` and then makes the one access `x`
(R162, R438). -/
def MakesAccess (i : Instr) (s : State) (a : Word) (align : Nat) (x : Access) : Prop :=
  ∃ k, exec i s = if misaligned a align then raise (addressError x.kind a) s else s.accessing [x] k

section
variable {i : Instr} {s : State} {a : Word} {align : Nat} {x : Access}

theorem MakesAccess.misaligned (h : MakesAccess i s a align x) (ha : a.toNat % align ≠ 0) :
    traps i s (addressError x.kind a) := by
  obtain ⟨k, hx⟩ := h
  exact traps_of_raise (by rw [hx, if_pos (misaligned_eq_true.mpr ha)])

theorem MakesAccess.races (h : MakesAccess i s a align x) (ha : a.toNat % align = 0)
    (hs : s.params.needsSync = true) (hb : Params.firstUnbacked s.params x.addr x.size = none)
    (hr : racing s x) : exec i s = .fault (.memoryRace x.addr) := by
  obtain ⟨k, hx⟩ := h
  rw [hx, misaligned_eq_false.mpr ha, if_neg (by simp)]
  exact accessing_race (pre := []) (post := []) k hs (by simpa using hb) (by simp) hr

/-- LWL, LWR, SWL and SWR check no alignment (R168, R169, R173, R174). -/
theorem makesAccess_unaligned {kind : AccessKind} {start start' : Word} {n n' : Nat} {k : State → Result}
    (h : exec i s = s.accessing (scalarAccess kind start n) k) (hstart : start = start') (hn : n = n') :
    MakesAccess i s a 1 ⟨.scalar, kind, start', n', []⟩ := by
  subst hstart hn
  exact ⟨k, by rw [h, misaligned_eq_false.mpr (Nat.mod_one _), if_neg (by simp), scalarAccess]⟩

theorem makesAccess_partialLoad {b : Word} {merge : Word → Word → Word} {rt : Reg}
    (h : exec i s = partialLoad b merge rt s) :
    MakesAccess i s a 1 ⟨.scalar, .read, b - BitVec.ofNat 32 (b.toNat % 4), 4, []⟩ :=
  makesAccess_unaligned h (wordBase_eq_sub b) rfl

theorem makesAccess_partialStore {start start' : Word} {n n' : Nat} {v : Word} (h : exec i s = partialStore start n v s)
    (hstart : start = start') (hn : n = n') : MakesAccess i s a 1 ⟨.scalar, .write, start', n', []⟩ :=
  makesAccess_unaligned h hstart hn

/-- An SC that surely stores makes the access of a word store (R176). -/
theorem makesAccess_sc {rt base : Reg} {o : BitVec 16} (h : storesForSure s (s.effAddr base o)) :
    MakesAccess (.sc rt o base) s (s.effAddr base o) 4 ⟨.scalar, .write, s.effAddr base o, 4, []⟩ := by
  obtain ⟨hbit, hclean, haddr⟩ := h
  have hsucc : s.scSucceeds (s.effAddr base o) = true := by
    simp [State.scSucceeds, State.linked, hbit, hclean, haddr]
  exact ⟨_, if_congr Iff.rfl rfl (if_pos hsucc)⟩

end

theorem scalarMemory_rows : ∀ m ∈ scalarMemory, ∀ (rt : Reg) (o : BitVec 16) (base : Reg) (s : State),
    MakesAccess (m.form rt o base) s (s.effAddr base o) m.align (m.access s (s.effAddr base o)) := by
  simp only [scalarMemory, List.forall_mem_cons]
  refine ⟨?_, ?_, ?_, ?_, ?_, ?_, ?_, ?_, ?_, fun _ _ _ _ => makesAccess_partialLoad rfl,
    fun _ _ _ _ => makesAccess_partialLoad rfl,
    fun _ _ _ _ => makesAccess_partialStore rfl (leftStart_eq_partialStart _ _) (sub_leftKept_eq_partialCount _ _),
    fun _ _ _ _ => makesAccess_partialStore rfl (rightStart_eq_partialStart _ _) (sub_rightKept_eq_partialCount _ _),
    by simp⟩
  all_goals exact fun _ _ _ _ => ⟨_, rfl⟩

/-- Settles O30: the alignment is the first check of each row; SC makes it before it looks at `LLbit`. -/
theorem scalarAddressErrors : Obligations.ScalarAddressErrors := by
  intro rt o base s a
  have loads : ∀ r ∈ [((Instr.lh : FormMem), 2), (Instr.lhu, 2), (Instr.lw, 4), (Instr.ll, 4)],
      plain r.1 .read r.2 ∈ scalarMemory := by simp [scalarMemory]
  refine ⟨fun c n hrow ha => (scalarMemory_rows _ (loads _ hrow) rt o base s).misaligned ha, fun c n hrow ha => ?_⟩
  simp only [List.mem_cons, Prod.mk.injEq, List.not_mem_nil, or_false] at hrow
  rcases hrow with ⟨rfl, rfl⟩ | ⟨rfl, rfl⟩ | ⟨rfl, rfl⟩
  · exact (scalarMemory_rows (plain .sh .write 2) (by simp [scalarMemory]) rt o base s).misaligned ha
  · exact (scalarMemory_rows (plain .sw .write 4) (by simp [scalarMemory]) rt o base s).misaligned ha
  · exact traps_of_raise (if_pos (misaligned_eq_true.mpr ha))

/-- Settles O32: the one access of each row is the first that races. -/
theorem unsynchronisedConflictsFault : Obligations.UnsynchronisedConflictsFault := by
  intro rt o base s a hs
  exact ⟨fun m hm ha hb hr => (scalarMemory_rows m hm rt o base s).races ha hs hb hr,
    fun ha hb hsure hr => (makesAccess_sc hsure).races ha hs hb hr⟩

/-! ### The vector loads and stores -/

/-- The instructions `c` are unit-stride transfers of elements of `n` bytes. -/
def UnitRow (tr : Transfer) (c : Form3) (n : Nat) : Prop :=
  ∃ w : Width, w.size = n ∧ ∀ vd rd rt s, exec (c vd rd rt) s = unitStride (c vd rd rt) tr w vd rd rt s

/-- The instructions `c` are strided or indexed transfers of elements of `n` bytes. -/
def AddressedRow (tr : Transfer) (c : Form3) (f : AddrForm) (n : Nat) : Prop :=
  ∃ w : Width, w.size = n ∧ ∀ vd rd y s,
    exec (c vd rd y) s = addressed (c vd rd y) tr w vd (f.addrs s rd y) (f.waits s y) s

theorem unitRow_of_unitLoads : ∀ r ∈ unitLoads, UnitRow vecLoad r.1 r.2.1 := by
  simp only [unitLoads, List.forall_mem_cons]
  exact ⟨⟨.byte, rfl, fun _ _ _ _ => rfl⟩, ⟨.half, rfl, fun _ _ _ _ => rfl⟩, ⟨.word, rfl, fun _ _ _ _ => rfl⟩,
    ⟨.byteU, rfl, fun _ _ _ _ => rfl⟩, ⟨.halfU, rfl, fun _ _ _ _ => rfl⟩, by simp⟩

theorem unitRow_of_unitStores : ∀ r ∈ unitStores, UnitRow vecStore r.1 r.2 := by
  simp only [unitStores, List.forall_mem_cons]
  exact ⟨⟨.byte, rfl, fun _ _ _ _ => rfl⟩, ⟨.half, rfl, fun _ _ _ _ => rfl⟩, ⟨.word, rfl, fun _ _ _ _ => rfl⟩,
    by simp⟩

theorem addressedRow_of_addressedLoads : ∀ r ∈ addressedLoads, AddressedRow vecLoad r.1 r.2.1 r.2.2.1 := by
  simp only [addressedLoads, List.forall_mem_cons]
  exact ⟨⟨.byte, rfl, fun _ _ _ _ => rfl⟩, ⟨.half, rfl, fun _ _ _ _ => rfl⟩, ⟨.word, rfl, fun _ _ _ _ => rfl⟩,
    ⟨.byteU, rfl, fun _ _ _ _ => rfl⟩, ⟨.halfU, rfl, fun _ _ _ _ => rfl⟩,
    ⟨.byte, rfl, fun _ _ _ _ => rfl⟩, ⟨.half, rfl, fun _ _ _ _ => rfl⟩, ⟨.word, rfl, fun _ _ _ _ => rfl⟩,
    ⟨.byteU, rfl, fun _ _ _ _ => rfl⟩, ⟨.halfU, rfl, fun _ _ _ _ => rfl⟩, by simp⟩

theorem addressedRow_of_addressedStores : ∀ r ∈ addressedStores, AddressedRow vecStore r.1 r.2.1 r.2.2 := by
  simp only [addressedStores, List.forall_mem_cons]
  exact ⟨⟨.byte, rfl, fun _ _ _ _ => rfl⟩, ⟨.half, rfl, fun _ _ _ _ => rfl⟩, ⟨.word, rfl, fun _ _ _ _ => rfl⟩,
    ⟨.byte, rfl, fun _ _ _ _ => rfl⟩, ⟨.half, rfl, fun _ _ _ _ => rfl⟩, ⟨.word, rfl, fun _ _ _ _ => rfl⟩, by simp⟩

/-- The elements before `n`, cut at one of them. -/
theorem elems_split {n : Nat} {e : Elem} (h : e.val < n) : ∃ post, elems n = elems e.val ++ e :: post := by
  obtain ⟨hlt, he⟩ := List.getElem?_eq_some_iff.mp (getElem?_elems h)
  refine ⟨(elems n).drop (e.val + 1), ?_⟩
  have hcut := List.drop_eq_getElem_cons hlt
  rw [he] at hcut
  have htake : (elems n).take e.val = elems e.val := by
    rw [elems_eq_take, elems_eq_take, List.take_take, Nat.min_eq_left h.le]
  rw [← hcut, ← htake, List.take_append_drop]

@[simp] theorem mem_elems {n : Nat} {e : Elem} : e ∈ elems n ↔ e.val < n := by simp [elems]

/-! ### Their alignment checks -/

theorem firstMisaligned_eq_some {addrs : Addrs} {size n : Nat} {e : Elem} (he : e.val < n)
    (hm : (addrs e).toNat % size ≠ 0) (hlt : ∀ j : Elem, j.val < e.val → (addrs j).toNat % size = 0) :
    firstMisaligned addrs size n = some e := by
  obtain ⟨post, hsplit⟩ := elems_split he
  refine List.find?_eq_some_iff_append.mpr ⟨misaligned_eq_true.mpr hm, elems e.val, post, hsplit, fun j hj => ?_⟩
  simp [misaligned_eq_false.mpr (hlt j (mem_elems.mp hj))]

theorem firstMisaligned_eq_none {s : State} {addrs : Addrs} {size : Nat} (h : aligned s addrs size) :
    firstMisaligned addrs size s.vlr.toNat = none :=
  List.find?_eq_none.mpr fun e he => by simp [misaligned_eq_false.mpr (h e (mem_elems.mp he))]

section
variable {tr : Transfer} {c : Form3} {f : AddrForm} {n : Nat} {vd : VReg} {rd rt : Reg} {y : BitVec 5} {s : State}

theorem UnitRow.misaligned (h : UnitRow tr c n) (hr : vecReady (c vd rd rt) s) (hne : rd ≠ rt)
    (ha : (s.reg rd).toNat % n ≠ 0) : traps (c vd rd rt) s (.vectorAddress (s.reg rd)) := by
  obtain ⟨w, rfl, hx⟩ := h
  refine traps_of_raise ?_
  rw [hx, unitStride, vecIssue_ok hr, if_neg hne, if_pos (misaligned_eq_true.mpr ha)]

theorem AddressedRow.misaligned (h : AddressedRow tr c f n) (hr : vecReady (c vd rd y) s) {e : Elem}
    (he : e.val < s.vlr.toNat) (hm : (f.addrs s rd y e).toNat % n ≠ 0)
    (hlt : ∀ j : Elem, j.val < e.val → (f.addrs s rd y j).toNat % n = 0) :
    traps (c vd rd y) s (.vectorAddress (f.addrs s rd y e)) := by
  obtain ⟨w, rfl, hx⟩ := h
  refine traps_of_raise ?_
  rw [hx, addressed, vecIssue_ok hr, alignedElems, firstMisaligned_eq_some he hm hlt]

/-- Past its checks an instruction of the row is its transfer. -/
theorem UnitRow.transfers (h : UnitRow tr c n) : ∃ w : Width, w.size = n ∧ ∀ {vd : VReg} {rd rt : Reg} {s : State},
    vecReady (c vd rd rt) s → rd ≠ rt → (s.reg rd).toNat % n = 0 →
    exec (c vd rd rt) s = tr vd (s.unitAddrs rd n) noWaits w s.vlr.toNat s fun t =>
      .next (t.setReg rd (s.reg rd + s.reg rt)).advance := by
  obtain ⟨w, rfl, hx⟩ := h
  refine ⟨w, rfl, fun hr hne ha => ?_⟩
  rw [hx, unitStride, vecIssue_ok hr, if_neg hne, misaligned_eq_false.mpr ha, if_neg (by simp)]

theorem AddressedRow.transfers (h : AddressedRow tr c f n) : ∃ w : Width, w.size = n ∧
    ∀ {vd : VReg} {rd : Reg} {y : BitVec 5} {s : State}, vecReady (c vd rd y) s → aligned s (f.addrs s rd y) n →
      exec (c vd rd y) s =
        tr vd (f.addrs s rd y) (f.waits s y) w s.vlr.toNat s fun t => .next t.advance := by
  obtain ⟨w, rfl, hx⟩ := h
  refine ⟨w, rfl, fun hr ha => ?_⟩
  rw [hx, addressed, vecIssue_ok hr, alignedElems, firstMisaligned_eq_none ha]

end

/-- Settles O50: by the alignment checks of the unit-stride rows and of the strided and indexed ones. -/
theorem vectorAddressExceptions : Obligations.VectorAddressExceptions := by
  refine ⟨fun c n hrow vd rd rt s hr hne ha => ?_, fun c f n hrow vd rd y s e hr he hm hlt => ?_⟩
  · rcases hrow with hrow | hrow
    · obtain ⟨r, hr', heq⟩ := List.mem_map.mp hrow
      obtain ⟨rfl, rfl⟩ := Prod.mk.inj heq
      exact (unitRow_of_unitLoads r hr').misaligned hr hne ha
    · exact (unitRow_of_unitStores _ hrow).misaligned hr hne ha
  · rcases hrow with hrow | hrow
    · obtain ⟨r, hr', heq⟩ := List.mem_map.mp hrow
      cases heq
      exact (addressedRow_of_addressedLoads r hr').misaligned hr he hm hlt
    · exact (addressedRow_of_addressedStores _ hrow).misaligned hr he hm hlt

/-! ### Their races -/

/-- The element accesses stop at the first element that races (R74). -/
theorem accessing_vecAccesses_race {s : State} {kind : AccessKind} {addrs : Addrs} {size : Nat} {after : Waits}
    {e : Elem} (h : racesFirstAt s kind addrs size after e) (k : State → Result) :
    s.accessing (vecAccesses kind addrs size s.vlr.toNat after) k = .fault (.memoryRace (addrs e)) := by
  obtain ⟨hs, he, hb, hr, hlt⟩ := h
  have hb' : ∀ x ∈ vecAccesses kind addrs size s.vlr.toNat after,
      Params.firstUnbacked s.params x.addr x.size = none := by
    simpa [vecAccesses] using hb
  obtain ⟨post, hsplit⟩ := elems_split he
  rw [vecAccesses, hsplit, List.map_append, List.map_cons] at hb' ⊢
  exact accessing_race k hs hb' (by simpa using hlt) hr

section
variable {c : Form3} {f : AddrForm} {n : Nat} {vd : VReg} {rd rt : Reg} {y : BitVec 5} {s : State} {e : Elem}

theorem UnitRow.load_races (h : UnitRow vecLoad c n) (hne : rd ≠ rt) (hr : vecReady (c vd rd rt) s)
    (ha : (s.reg rd).toNat % n = 0) (hrace : racesFirstAt s .read (s.unitAddrs rd n) n noWaits e) :
    exec (c vd rd rt) s = .fault (.memoryRace (s.unitAddrs rd n e)) := by
  obtain ⟨w, rfl, hx⟩ := h.transfers
  exact (hx hr hne ha).trans (accessing_vecAccesses_race hrace _)

theorem UnitRow.store_races (h : UnitRow vecStore c n) (hne : rd ≠ rt) (hr : vecReady (c vd rd rt) s)
    (ha : (s.reg rd).toNat % n = 0) (hrace : racesFirstAt s .write (s.unitAddrs rd n) n (s.waitsOf vd) e) :
    exec (c vd rd rt) s = .fault (.memoryRace (s.unitAddrs rd n e)) := by
  obtain ⟨w, rfl, hx⟩ := h.transfers
  have hafter : (fun i => s.waitsOf vd i ++ noWaits i) = s.waitsOf vd := by simp [noWaits]
  rw [hx hr hne ha, vecStore, hafter, accessing_vecAccesses_race hrace]

theorem AddressedRow.load_races (h : AddressedRow vecLoad c f n) (hr : vecReady (c vd rd y) s)
    (ha : aligned s (f.addrs s rd y) n) (hrace : racesFirstAt s .read (f.addrs s rd y) n (f.waits s y) e) :
    exec (c vd rd y) s = .fault (.memoryRace (f.addrs s rd y e)) := by
  obtain ⟨w, rfl, hx⟩ := h.transfers
  exact (hx hr ha).trans (accessing_vecAccesses_race hrace _)

theorem AddressedRow.store_races (h : AddressedRow vecStore c f n) (hr : vecReady (c vd rd y) s)
    (ha : aligned s (f.addrs s rd y) n)
    (hrace : racesFirstAt s .write (f.addrs s rd y) n (fun j => s.waitsOf vd j ++ f.waits s y j) e) :
    exec (c vd rd y) s = .fault (.memoryRace (f.addrs s rd y e)) := by
  obtain ⟨w, rfl, hx⟩ := h.transfers
  exact (hx hr ha).trans (accessing_vecAccesses_race hrace _)

end

/-- Without `NEEDS_SYNC` no access is a race (R74). -/
theorem firstRace_of_not_needsSync {s : State} (h : s.params.needsSync = false) (new : List Access) :
    s.firstRace new = none := by simp [State.firstRace, h]

/-- Settles O52: the transfer of every row looks for a race among its element accesses, in their order. -/
theorem vectorConflictsFault : Obligations.VectorConflictsFault := by
  refine ⟨fun s new hb hr => ?_, fun vd rd rt s e hne => ⟨fun c n sg hrow => ?_, fun c n hrow => ?_⟩,
    fun vd rd y s e => ⟨fun c f n sg hrow => ?_, fun c f n hrow => ?_⟩⟩
  · cases hs : s.params.needsSync with
    | true => exact accessible_of_no_race hb (hr hs)
    | false => exact ⟨hb, firstRace_of_not_needsSync hs new⟩
  · exact (unitRow_of_unitLoads _ hrow).load_races hne
  · exact (unitRow_of_unitStores _ hrow).store_races hne
  · exact (addressedRow_of_addressedLoads _ hrow).load_races
  · exact (addressedRow_of_addressedStores _ hrow).store_races

/-! ### The bytes a vector store leaves -/

/-- The bytes of two aligned elements are apart, or the elements have one address (R67). -/
theorem byteAddr_aligned_inj {w : Width} {a b : Word} (ha : a.toNat % w.size = 0) (hb : b.toNat % w.size = 0)
    {j k : Nat} (hj : j < w.size) (hk : k < w.size) (h : byteAddr a j = byteAddr b k) : a = b := by
  have h := congrArg BitVec.toNat h
  simp only [byteAddr, BitVec.toNat_add, BitVec.toNat_ofNat] at h
  apply BitVec.eq_of_toNat_eq
  have := a.isLt
  have := b.isLt
  cases w <;> simp only [Width.size] at ha hb hj hk <;> omega

theorem size_le_four (w : Width) : w.size ≤ 4 := by cases w <;> decide

/-- Stores to aligned addresses one after another: at the address of one of them stands what the stores to
that address agree on. -/
theorem byte_foldl_store {w : Width} {addrs : Addrs} {g : Elem → Word} {e : Elem} {k : Nat} (hk : k < w.size)
    (he : (addrs e).toNat % w.size = 0) (l : List Elem) (t : State) (hwf : Memory.wf t.mem = true)
    (hl : ∀ i ∈ l, (addrs i).toNat % w.size = 0 ∧ (addrs i = addrs e → g i = g e))
    (h : e ∈ l ∨ t.byte (byteAddr (addrs e) k) = storedByte t w.size (g e) k) :
    (l.foldl (fun t i => t.store (addrs i) w.size (g i)) t).byte (byteAddr (addrs e) k) =
      storedByte t w.size (g e) k := by
  induction l generalizing t with
  | nil => simpa using h
  | cons i l ih =>
    obtain ⟨⟨hi, hg⟩, hl⟩ := List.forall_mem_cons.mp hl
    refine ih (t.store (addrs i) w.size (g i)) (wf_store _ _ _ hwf) hl ?_
    by_cases ha : addrs i = addrs e
    · right
      rw [ha, hg ha, byte_store_same t _ _ _ hwf (size_le_four w) hk, byteAt_eq_storedByte]
      rfl
    · refine h.imp (fun hmem => ?_) fun hbyte => ?_
      · exact (List.mem_cons.mp hmem).resolve_left fun e => ha (congrArg addrs e.symm)
      · rw [byte_store_other t _ _ _ _ fun j hj e => ha (byteAddr_aligned_inj he hi hk hj e).symm, hbyte]
        rfl

section
variable (s : State) {addrs : Addrs} {n : Nat} {e : Elem}

theorem mem_sharers {i j : Elem} : j ∈ sharers addrs n i ↔ j.val < n ∧ addrs j = addrs i := by
  simp [sharers]

/-- The value that remains at an address is that of an element stored there (R70). -/
theorem survivor_mem_sharers (he : e.val < n) : s.survivor addrs n e ∈ sharers addrs n e := by
  have hmem : e ∈ sharers addrs n e := mem_sharers.mpr ⟨he, rfl⟩
  unfold State.survivor
  split
  · next h => simp [h] at hmem
  · next h => simp [h]
  · next j k js h =>
    rw [h]
    have hlt : (s.draw j.val).toNat % (js.length + 2) < (j :: k :: js).length := Nat.mod_lt _ (by omega)
    rw [List.getElem?_eq_getElem hlt, Option.getD_some]
    exact List.getElem_mem hlt

/-- Elements with one address have one survivor (R70). -/
theorem survivor_congr {i : Elem} (he : e.val < n) (h : addrs i = addrs e) :
    s.survivor addrs n i = s.survivor addrs n e := by
  have hmem : e ∈ sharers addrs n e := mem_sharers.mpr ⟨he, rfl⟩
  have hs : sharers addrs n i = sharers addrs n e := by simp [sharers, h]
  unfold State.survivor
  rw [hs]
  split
  · next hnil => simp [hnil] at hmem
  · rfl
  · rfl

/-- After a vector store of aligned elements the value of its survivor stands at every address (R263). -/
theorem byte_storeElems_survivor {w : Width} {k : Nat} (f : Elem → Word) (hwf : Memory.wf s.mem = true)
    (ha : ∀ i : Elem, i.val < n → (addrs i).toNat % w.size = 0) (he : e.val < n) (hk : k < w.size) :
    (s.storeElems addrs w.size n f).byte (byteAddr (addrs e) k) =
      storedByte s w.size (f (s.survivor addrs n e)) k :=
  byte_foldl_store (g := fun i => f (s.survivor addrs n i)) hk (ha e he) (elems n) s hwf
    (fun i hi => ⟨ha i (mem_elems.mp hi), fun h => congrArg f (survivor_congr s he h)⟩) (.inl (mem_elems.mpr he))

end

/-- A transfer of a vector store whose accesses can be made. -/
theorem vecStore_ok {vd : VReg} {addrs : Addrs} {aw : Waits} {w : Width} {n : Nat} {s : State}
    (h : accessible s (vecAccesses .write addrs w.size n fun i => s.waitsOf vd i ++ aw i)) (k : State → Result) :
    vecStore vd addrs aw w n s k =
      k (((s.record (vecAccesses .write addrs w.size n fun i => s.waitsOf vd i ++ aw i)).storeElems addrs w.size n
        fun i => s.elem vd i).consume n) :=
  accessing_ok h _

/-- Settles O48: at every address the value of its survivor remains. -/
theorem addressedStores : Obligations.AddressedStores := by
  intro c f n hrow vd rd y s addrs new hwf hr ha hacc
  obtain ⟨w, rfl, hx⟩ := (addressedRow_of_addressedStores _ hrow).transfers
  refine ⟨_, (hx hr ha).trans (vecStore_ok hacc _), fun e he => ?_, ?_, ?_,
    goesOn_advance s (by simp) (by simp) (by simp)⟩
  · obtain ⟨hlt, haddr⟩ := mem_sharers.mp (survivor_mem_sharers (s.record new) (addrs := addrs) he)
    refine ⟨_, hlt, haddr, fun k hk => ?_⟩
    rw [byte_advance, byte_consume]
    exact byte_storeElems_survivor (s.record new) (s.elem vd) hwf ha he hk
  · exact ⟨by simp [new, addrs], by simp [new, addrs, writtenSpans], by simp⟩
  · refine (((frame_refl.recording rfl new).storeElems (fun i b hi h => ?_) _).consume (by simp)).advance
    exact ⟨i, hi, h⟩

end Sys2Proof.MemoryRules

/-! SUPPORT. The statements of the encoding family: each table of the decoder reads back the word it was
given (R90 to R113), and the words that the tables leave reserved (R93 to R95, R100). -/

namespace Sys2Proof.EncodingRules

open Sys2Proof.StateRules

/-! ### The word a format builds is the one with the format's fields (R91, R97) -/

section
variable {w : Word}

theorem mkR_eq_iff {op : BitVec 6} {rs rt rd sa : BitVec 5} {funct : BitVec 6} :
    mkR op rs rt rd sa funct = w ↔
      opOf w = op ∧ rsOf w = rs ∧ rtOf w = rt ∧ rdOf w = rd ∧ saOf w = sa ∧ functOf w = funct := by
  constructor
  · rintro rfl
    simp
  · rintro ⟨rfl, rfl, rfl, rfl, rfl, rfl⟩
    exact mkR_fields w

theorem mkI_eq_iff {op : BitVec 6} {rs rt : BitVec 5} {imm : BitVec 16} :
    mkI op rs rt imm = w ↔ opOf w = op ∧ rsOf w = rs ∧ rtOf w = rt ∧ immOf w = imm := by
  constructor
  · rintro rfl
    simp
  · rintro ⟨rfl, rfl, rfl, rfl⟩
    exact mkI_fields w

theorem mkJ_eq_iff {op : BitVec 6} {target : BitVec 26} :
    mkJ op target = w ↔ opOf w = op ∧ targetOf w = target := by
  constructor
  · rintro rfl
    simp
  · rintro ⟨rfl, rfl⟩
    exact mkJ_fields w

theorem mkT_eq_iff {rs rt : BitVec 5} {code : BitVec 10} {funct : BitVec 6} :
    mkT rs rt code funct = w ↔
      opOf w = 0#6 ∧ rsOf w = rs ∧ rtOf w = rt ∧ codeOf w = code ∧ functOf w = funct := by
  constructor
  · rintro rfl
    simp
  · rintro ⟨hop, rfl, rfl, rfl, rfl⟩
    exact mkT_fields w hop

theorem mkS_eq_iff {code : BitVec 20} {funct : BitVec 6} :
    mkS code funct = w ↔ opOf w = 0#6 ∧ sysCodeOf w = code ∧ functOf w = funct := by
  constructor
  · rintro rfl
    simp
  · rintro ⟨hop, rfl, rfl⟩
    exact mkS_fields w hop

theorem mkL_eq_iff {op : BitVec 6} {rs : BitVec 5} {low : BitVec 21} :
    mkL op rs low = w ↔ opOf w = op ∧ rsOf w = rs ∧ lowOf w = low := by
  constructor
  · rintro rfl
    simp
  · rintro ⟨rfl, rfl, rfl⟩
    exact mkL_fields w

theorem mkV_eq_iff {format t rd : BitVec 5} {opers : BitVec 1} {vw vd : BitVec 5} :
    mkV format t rd opers vw vd = w ↔
      opOf w = 18#6 ∧ rsOf w = format ∧ rtOf w = t ∧ rdOf w = rd ∧ opersOf w = opers ∧ vwOf w = vw ∧
        vdOf w = vd := by
  constructor
  · rintro rfl
    simp
  · rintro ⟨hop, rfl, rfl, rfl, rfl, rfl, rfl⟩
    exact mkV_fields w hop

end

/-! ### Reading a word back from what was decoded -/

/-- The instruction that was decoded, if one was, has the word `w`. -/
def ReadsBack (w : Word) (d : Decoded) : Prop := ∀ i, d = .instr i → encode i = w

section
variable {w : Word}

@[simp] theorem readsBack_instr {i : Instr} : ReadsBack w (.instr i) ↔ encode i = w := by
  simp [ReadsBack]

@[simp] theorem readsBack_reserved : ReadsBack w .reserved := by
  simp [ReadsBack]

@[simp] theorem readsBack_unusedBits {m : String} : ReadsBack w (.unusedBits m) := by
  simp [ReadsBack]

@[simp] theorem readsBack_ite {c : Prop} [Decidable c] {a b : Decoded} :
    ReadsBack w (if c then a else b) ↔ (c → ReadsBack w a) ∧ (¬c → ReadsBack w b) := by
  split <;> simp [*]

/-- R94: in each row the fields its instruction does not use are tested to be zero. -/
theorem readsBack_decodeSpecial (hop : opOf w = 0#6) : ReadsBack w (decodeSpecial w) := by
  unfold decodeSpecial
  split <;> simp +contextual [encode, mkR_eq_iff, mkT_eq_iff, mkS_eq_iff, *]

/-- R95: the selector is the `rt` field, and every other bit is an operand. -/
theorem readsBack_decodeRegimm (hop : opOf w = 1#6) : ReadsBack w (decodeRegimm w) := by
  unfold decodeRegimm
  split <;> simp [encode, mkI_eq_iff, *]

/-! ### The tables of the vector unit (R101 to R103) -/

section
variable (hop : opOf w = 18#6)
include hop

theorem readsBack_decodeIxv (hrs : rsOf w = 0b10000#5) : ReadsBack w (decodeIxv w) := by
  unfold decodeIxv
  split
  · next hopers => split <;> simp [encode, mkV_eq_iff, *]
  · exact readsBack_reserved

theorem readsBack_decodeIxs (hrs : rsOf w = 0b10001#5) : ReadsBack w (decodeIxs w) := by
  unfold decodeIxs
  split
  · next hopers => split <;> simp [encode, mkV_eq_iff, *]
  · exact readsBack_reserved

theorem readsBack_decodeMemv (hrs : rsOf w = 0b10010#5) : ReadsBack w (decodeMemv w) := by
  unfold decodeMemv
  split
  · next hopers => split <;> simp [encode, mkV_eq_iff, *]
  · exact readsBack_reserved

theorem readsBack_decodeMems (hrs : rsOf w = 0b10011#5) : ReadsBack w (decodeMems w) := by
  unfold decodeMems
  split
  · next hopers => split <;> simp [encode, mkV_eq_iff, *]
  · exact readsBack_reserved

theorem readsBack_decodeIntVv (hrs : rsOf w = 0b10100#5) (hopers : opersOf w = 0#1) :
    ReadsBack w (decodeIntVv w) := by
  unfold decodeIntVv
  split <;> simp +contextual [encode, mkV_eq_iff, *]

theorem readsBack_decodeIntVs (hrs : rsOf w = 0b10101#5) (hopers : opersOf w = 0#1) :
    ReadsBack w (decodeIntVs w) := by
  unfold decodeIntVs
  split <;> simp +contextual [encode, mkV_eq_iff, *]

theorem readsBack_decodeIntSv (hrs : rsOf w = 0b10101#5) (hopers : opersOf w = 1#1) :
    ReadsBack w (decodeIntSv w) := by
  unfold decodeIntSv
  split <;> simp +contextual [encode, mkV_eq_iff, *]

/-- R113: by the format. The formats with a table of their own are read back by it, and every other row of
R105 and R112 is one word for each value of its operands. -/
theorem readsBack_decodeCop2 : ReadsBack w (decodeCop2 w) := by
  have hsv : ¬opersOf w = 0#1 → opersOf w = 1#1 := (BitVec.eq_zero_or_eq_one _).resolve_left
  unfold decodeCop2
  split
  case h_5 => -- BC2, by its own selector
    split <;> simp [encode, mkI_eq_iff, *]
  case h_6 => exact readsBack_decodeIxv hop ‹_›
  case h_7 => exact readsBack_decodeIxs hop ‹_›
  case h_8 => exact readsBack_decodeMemv hop ‹_›
  case h_9 => exact readsBack_decodeMems hop ‹_›
  case h_10 hrs => simp +contextual [readsBack_decodeIntVv hop hrs]
  case h_11 hrs => simp +contextual [readsBack_decodeIntVs hop hrs, readsBack_decodeIntSv hop hrs, hsv]
  all_goals simp +contextual [encode, mkR_eq_iff, mkL_eq_iff, mkV_eq_iff, *]

end

/-- By the major opcode: three of them have tables of their own, the others are rows of the map (R93). -/
theorem readsBack_decode (w : Word) : ReadsBack w (decode w) := by
  unfold decode
  split
  case h_1 => exact readsBack_decodeSpecial ‹_›
  case h_2 => exact readsBack_decodeRegimm ‹_›
  case h_3 => exact readsBack_decodeCop2 ‹_›
  all_goals simp +contextual [encode, mkI_eq_iff, mkJ_eq_iff, *]

end

/-! ### What the decoder can answer -/

section
variable {w : Word}

/-- The only word of an instruction is the one that decodes to it. -/
theorem encode_eq_iff {i : Instr} : encode i = w ↔ decode w = .instr i :=
  ⟨fun h => h ▸ decode_encode i, readsBack_decode w i⟩

/-- R113: no COP2 word has unused bits; a nonzero bit where none may be makes the word reserved. -/
theorem decodeCop2_reserved_or_instr : decodeCop2 w = .reserved ∨ ∃ i, decodeCop2 w = .instr i := by
  unfold decodeCop2 decodeIxv decodeIxs decodeMemv decodeMems decodeIntVv decodeIntVs decodeIntSv
  repeat' split
  all_goals simp

/-- The reserved major opcodes (R93). -/
theorem decode_reserved_of_opOf
    (h : (opOf w).toNat ∈ [24, 25, 26, 27, 28, 29, 30, 31, 39, 44, 45, 47, 52, 55, 60, 63]) :
    decode w = .reserved := by
  unfold decode
  split
  all_goals simp [*] at h ⊢

/-- The reserved functions of SPECIAL (R94). -/
theorem decodeSpecial_reserved
    (h : (functOf w).toNat ∈ [1, 5, 10, 11, 14, 20, 21, 22, 23, 28, 29, 30, 31, 40, 41, 44, 45, 46, 47, 53,
      55, 56, 57, 58, 59, 60, 61, 62, 63]) :
    decodeSpecial w = .reserved := by
  unfold decodeSpecial
  split
  all_goals simp [*] at h ⊢

/-- The reserved selectors of REGIMM (R95). -/
theorem decodeRegimm_reserved (h : (rtOf w).toNat ∉ [0, 1, 2, 3, 8, 9, 10, 11, 12, 14, 16, 17, 18, 19]) :
    decodeRegimm w = .reserved := by
  unfold decodeRegimm
  split
  all_goals simp [*] at h ⊢

/-- The reserved formats of the vector unit (R100). -/
theorem decodeCop2_reserved (h : rsOf w ∈ [0b10110#5, 0b10111#5, 0b11110#5, 0b11111#5]) :
    decodeCop2 w = .reserved := by
  unfold decodeCop2
  split
  all_goals simp [*] at h ⊢

end

/-! ### The statements -/

/-- Settles O1, by `decode_encode`. -/
theorem decodeEncode : Obligations.DecodeEncode := decode_encode

/-- Settles O2: every table of the decoder reads back the word it was given. -/
theorem encodeDecode : Obligations.EncodeDecode := readsBack_decode

/-- Settles O3: a second instruction with the word would be decoded from it as well. -/
theorem cop2WordsAreOneInstructionOrReserved : Obligations.Cop2WordsAreOneInstructionOrReserved := by
  intro w hop
  rw [decode_cop2 hop]
  refine decodeCop2_reserved_or_instr.imp_right fun ⟨i, hi⟩ => ⟨i, hi, fun j hj => ?_⟩
  have hdec : decode w = .instr j := encode_eq_iff.mp hj
  rw [decode_cop2 hop, hi] at hdec
  exact (Decoded.instr.inj hdec).symm

/-- Settles O4: no row of the three tables stands at the codes listed. -/
theorem reservedScalarWords : Obligations.ReservedScalarWords := fun _ =>
  ⟨decode_reserved_of_opOf, fun hop h => (decode_special hop).trans (decodeSpecial_reserved h),
    fun hop h => (decode_regimm hop).trans (decodeRegimm_reserved h)⟩

/-- Settles O5: an instruction with such a word would be decoded from it. -/
theorem reservedVectorFormats : Obligations.ReservedVectorFormats := by
  intro w hop hrs
  have hres : decode w = .reserved := (decode_cop2 hop).trans (decodeCop2_reserved hrs)
  refine ⟨hres, fun i hi => ?_⟩
  have hdec := encode_eq_iff.mp hi
  rw [hres] at hdec
  cases hdec

/-- Settles O6: each word is what the encoder writes for its instruction. -/
theorem sampleWordsDecode : Obligations.SampleWordsDecode :=
  ⟨decode_encode (.add 1#5 2#5 3#5), decode_encode (.lw 4#5 0xFFF8#16 5#5), decode_encode (.beq 1#5 2#5 3#16),
    decode_encode (.ctvu 4#5 2#5), decode_encode (.vinsS 7#5 5#5 6#5), decode_encode (.lwaiV 5#5 6#5 7#5),
    decode_encode (.subSv 6#5 7#5 5#5), decode_encode (.fltVv 5#5 7#5), decode_encode (.fxmulSv 6#5 7#5 5#5 8#5)⟩

end Sys2Proof.EncodingRules

/-! SUPPORT. The statements of the scalar integer family: trapping arithmetic (R122, R124, R138), immediates
(R139 to R145), products and quotients (R146 to R149), and the moves of HI and LO (R150 to R153). -/

namespace Sys2Proof.Safety

open Sys2Proof.Machine

section
variable {m : Touches} {s t : State}

theorem Frame.setHiLo (h : Frame m s t) (hm : m.hiLo = true) (hi lo : Word) : Frame m s (t.setHiLo hi lo) := by
  refine h.trans ?_
  constructor <;> simp [hm]

theorem Frame.moveToHi (h : Frame m s t) (hm : m.hiLo = true) (hd : m.draws = true) (v : Word) :
    Frame m s (t.moveToHi v) := by
  refine h.trans ?_
  constructor <;> simp [hm, hd]

theorem Frame.moveToLo (h : Frame m s t) (hm : m.hiLo = true) (hd : m.draws = true) (v : Word) :
    Frame m s (t.moveToLo v) := by
  refine h.trans ?_
  constructor <;> simp [hm, hd]

end

end Sys2Proof.Safety

namespace Sys2Proof.Machine

/-! ### HI and LO after a move to one of them (R151, R153) -/

section
variable (s : State) (v : Word)

@[simp] theorem moveToHi_hi : (s.moveToHi v).hi = v := by unfold State.moveToHi; split <;> rfl
@[simp] theorem moveToLo_lo : (s.moveToLo v).lo = v := by unfold State.moveToLo; split <;> rfl

@[simp] theorem moveToHi_hiFromMul : (s.moveToHi v).hiFromMul = false := by
  unfold State.moveToHi; split <;> rfl

@[simp] theorem moveToLo_loFromMul : (s.moveToLo v).loFromMul = false := by
  unfold State.moveToLo; split <;> rfl

/-- A result of a multiply or divide in the other register is lost. -/
@[simp] theorem moveToHi_loFromMul : (s.moveToHi v).loFromMul = false := by
  unfold State.moveToHi
  split
  · rfl
  · next h => simpa using h

@[simp] theorem moveToLo_hiFromMul : (s.moveToLo v).hiFromMul = false := by
  unfold State.moveToLo
  split
  · rfl
  · next h => simpa using h

variable {s}

theorem moveToHi_eq (h : s.loFromMul = false) : s.moveToHi v = { s with hi := v, hiFromMul := false } := by
  simp [State.moveToHi, h]

theorem moveToLo_eq (h : s.hiFromMul = false) : s.moveToLo v = { s with lo := v, loFromMul := false } := by
  simp [State.moveToLo, h]

end

end Sys2Proof.Machine

namespace Sys2Proof.ScalarRules

open Sys2Proof.Machine Sys2Proof.Safety Sys2Proof.Claims Sys2Proof.StateRules

/-! ### Immediates (R92) -/

section
variable (imm : BitVec 16)

theorem toInt_sextImm : (sextImm imm).toInt = imm.toInt := BitVec.toInt_signExtend_of_le (by omega)

theorem ofNat_toNat_eq_zextImm : BitVec.ofNat 32 imm.toNat = zextImm imm := BitVec.ofNat_toNat 32 imm

/-- R145: an immediate above sixteen zeros is 2^16 times the immediate. -/
theorem ofNat_toNat_mul_eq_append : BitVec.ofNat 32 (imm.toNat * 2 ^ 16) = imm ++ 0#16 := by
  apply BitVec.eq_of_toNat_eq
  rw [BitVec.toNat_append, BitVec.toNat_ofNat, Nat.mod_eq_of_lt (by omega)]
  simp [Nat.shiftLeft_eq]

end

/-- Settles O20: each runs `writeReg`, with the value of the extended immediate. -/
theorem immediateResults : Obligations.ImmediateResults := by
  have rows : ∀ r ∈ immediates, ∀ (rt rs : Reg) (imm : BitVec 16) (s : State),
      exec (r.1 rt rs imm) s = writeReg rt (r.2 (s.reg rs) imm) s := by
    simp only [immediates, List.forall_mem_cons, truth_eq_boolWord, ← toInt_sextImm, BitVec.ofInt_add,
      BitVec.ofInt_toInt, ofNat_toNat_eq_zextImm]
    refine ⟨?_, ?_, ?_, ?_, ?_, ?_, by simp⟩ <;> intros <;> rfl
  refine ⟨fun c f h rt rs imm s => setsReg_of_writeReg (rows _ h rt rs imm s), fun rt imm s => ?_⟩
  rw [ofNat_toNat_mul_eq_append]
  exact setsReg_of_writeReg rfl

/-! ### Trapping arithmetic (R122, R124, R138) -/

/-- Where `v` is the exact result `x` in 33 bits, `x` is written if it fits, and IntegerOverflow is raised if
it does not. -/
theorem setsReg_or_traps_of_writeOrOverflow {i : Instr} {s : State} {rd : Reg} {v : BitVec 33} {x : Int}
    (h : exec i s = writeOrOverflow rd v s) (hx : v.toInt = x) :
    (fits x → setsReg i s rd (BitVec.ofInt 32 x)) ∧ (¬fits x → traps i s .integerOverflow) := by
  subst hx
  rw [writeOrOverflow] at h
  refine ⟨fun hfits => ?_, fun hfits => traps_of_raise ?_⟩
  · rw [← setWidth_eq_ofInt]
    exact setsReg_of_writeReg (h.trans (if_neg fun ho => (overflows_iff v).mp ho hfits))
  · exact h.trans (if_pos ((overflows_iff v).mpr hfits))

/-- Settles O19: the 33-bit sums and differences are exact. -/
theorem trappingArithmetic : Obligations.TrappingArithmetic := by
  intro rd rs rt imm s a b
  have hadd := setsReg_or_traps_of_writeOrOverflow (i := .add rd rs rt) (s := s) rfl (toInt_sum33 _ _)
  have hsub := setsReg_or_traps_of_writeOrOverflow (i := .sub rd rs rt) (s := s) rfl (toInt_diff33 _ _)
  have haddi := setsReg_or_traps_of_writeOrOverflow (i := .addi rt rs imm) (s := s) rfl (toInt_sum33 _ _)
  rw [toInt_sextImm] at haddi
  exact ⟨hadd.1, hadd.2, hsub.1, hsub.2, haddi.1, haddi.2⟩

/-! ### Products (R146, R147) -/

section
variable (a b : Word)

theorem toInt_signed_product : (a.signExtend 64 * b.signExtend 64).toInt = a.toInt * b.toInt := by
  have hlo := BitVec.le_toInt_mul_toInt (x := a) (y := b)
  have hhi := BitVec.toInt_mul_toInt_le (x := a) (y := b)
  rw [BitVec.toInt_mul, BitVec.toInt_signExtend_of_le (by omega), BitVec.toInt_signExtend_of_le (by omega)]
  exact Int.bmod_eq_of_le (by omega) (by omega)

theorem toNat_unsigned_product : (a.setWidth 64 * b.setWidth 64).toNat = a.toNat * b.toNat := by
  have hlt : a.toNat * b.toNat < 2 ^ 32 * 2 ^ 32 := Nat.mul_lt_mul'' a.isLt b.isLt
  rw [BitVec.toNat_mul, BitVec.toNat_setWidth_of_le (by omega), BitVec.toNat_setWidth_of_le (by omega),
    Nat.mod_eq_of_lt (by omega)]

end

theorem high_append_low (p : BitVec 64) : p.extractLsb' 32 32 ++ p.extractLsb' 0 32 = p :=
  (BitVec.extractLsb'_append_extractLsb'_eq_extractLsb' rfl).trans BitVec.extractLsb'_eq_self

/-- A multiplication leaves its product in HI and LO together. -/
theorem result_of_product {i : Instr} {s : State} {p : BitVec 64}
    (h : exec i s = .next (s.setHiLo (p.extractLsb' 32 32) (p.extractLsb' 0 32)).advance) :
    ∃ t, exec i s = .next t ∧ t.hi ++ t.lo = p ∧ (t.hiFromMul = true ∧ t.loFromMul = true) ∧
      Frame { hiLo := true } s t ∧ goesOn s t :=
  ⟨_, h, high_append_low p, ⟨rfl, rfl⟩, (frame_refl.setHiLo rfl _ _).advance, goesOn_advance s rfl rfl rfl⟩

/-! ### Quotients (R148, R149) -/

/-- A division leaves quotient and remainder in LO and HI where they are defined, and completes where they are
not. -/
theorem result_of_quotient {i : Instr} {s : State} {undef : Prop} [Decidable undef] {rem quot : Word}
    (h : exec i s = if undef then divUndefined s else .next (s.setHiLo rem quot).advance) :
    ∃ t, exec i s = .next t ∧ (¬undef → t.lo = quot ∧ t.hi = rem ∧ t.draws = s.draws) ∧
      (t.hiFromMul = true ∧ t.loFromMul = true) ∧ Frame { hiLo := true, draws := true } s t ∧ goesOn s t := by
  by_cases hu : undef
  · exact ⟨_, h.trans (if_pos hu), fun hn => absurd hu hn, ⟨rfl, rfl⟩,
      ((frame_refl.setHiLo rfl _ _).consume fun _ => rfl).advance, goesOn_advance s rfl rfl rfl⟩
  · exact ⟨_, h.trans (if_neg hu), fun _ => ⟨rfl, rfl, rfl⟩, ⟨rfl, rfl⟩,
      (frame_refl.setHiLo rfl _ _).advance, goesOn_advance s rfl rfl rfl⟩

/-- Settles O21: the 64-bit products are exact, and the word quotients are where R148 and R149 define them. -/
theorem productsAndQuotients : Obligations.ProductsAndQuotients := by
  intro rs rt s a b fromMul
  refine ⟨?mult, ?multu, ?div, ?divu⟩
  case mult =>
    obtain ⟨t, hx, hp, hrest⟩ := result_of_product (i := .mult rs rt) (s := s) rfl
    exact ⟨t, hx, (congrArg BitVec.toInt hp).trans (toInt_signed_product a b), hrest⟩
  case multu =>
    obtain ⟨t, hx, hp, hrest⟩ := result_of_product (i := .multu rs rt) (s := s) rfl
    exact ⟨t, hx, (congrArg BitVec.toNat hp).trans (toNat_unsigned_product a b), hrest⟩
  case div =>
    obtain ⟨t, hx, hq, hrest⟩ := result_of_quotient (i := .div rs rt) (s := s) rfl
    refine ⟨t, hx, fun hzero hover => ?_, hrest⟩
    obtain ⟨hlo, hhi, hdraws⟩ := hq (not_or.mpr ⟨hzero, hover⟩)
    rw [hlo, hhi]
    exact ⟨BitVec.toInt_sdiv_of_ne_or_ne a b (not_and_or.mp hover), BitVec.toInt_srem a b, hdraws⟩
  case divu =>
    obtain ⟨t, hx, hq, hrest⟩ := result_of_quotient (i := .divu rs rt) (s := s) rfl
    refine ⟨t, hx, fun hzero => ?_, hrest⟩
    obtain ⟨hlo, hhi, hdraws⟩ := hq hzero
    rw [hlo, hhi]
    exact ⟨BitVec.toNat_udiv, BitVec.toNat_umod, hdraws⟩

/-! ### HI and LO (R150 to R153) -/

/-- Settles O22: `moveToHi` and `moveToLo` keep the other register unless they draw a value for it. -/
theorem hiLoMoves : Obligations.HiLoMoves := by
  intro r s
  refine ⟨setsReg_of_writeReg rfl, setsReg_of_writeReg rfl, ⟨(s.moveToHi (s.reg r)).advance, rfl, ?mthi⟩,
    ⟨(s.moveToLo (s.reg r)).advance, rfl, ?mtlo⟩⟩
  case mthi =>
    exact ⟨by simp, fun hlo => by simp [moveToHi_eq _ hlo], by simp, by simp,
      (frame_refl.moveToHi rfl rfl _).advance, goesOn_advance s (by simp) (by simp) (by simp)⟩
  case mtlo =>
    exact ⟨by simp, fun hhi => by simp [moveToLo_eq _ hhi], by simp, by simp,
      (frame_refl.moveToLo rfl rfl _).advance, goesOn_advance s (by simp) (by simp) (by simp)⟩

end Sys2Proof.ScalarRules

/-! SUPPORT. The statements of the scalar memory and control family: the scalar loads and stores with the bytes
they move (R162 to R174), SC (R176), their bus errors (R437), the refused jumps and branches (R178 to R190), the
traps (R200 to R214), and the coprocessors that cannot be used (R234 to R237). -/

namespace Sys2Proof.TransferRules

open Sys2Proof.Machine Sys2Proof.Safety Sys2Proof.Claims Sys2Proof.StateRules Sys2Proof.MemoryRules

/-! ### Numbers made of bytes, and their widening (R64, R66) -/

theorem foldl_bytes_lt (bs : List Byte) :
    bs.foldl (fun n b => n * 256 + b.toNat) 0 < 256 ^ bs.length := by
  induction bs using List.reverseRecOn with
  | nil => simp
  | append_singleton bs b ih =>
    rw [List.foldl_append, List.length_append, pow_add]
    simp only [List.foldl_cons, List.foldl_nil, List.length_cons, List.length_nil]
    omega

theorem unsignedAt_lt (s : State) (a : Word) (n : Nat) : unsignedAt s a n < 256 ^ n := by
  unfold unsignedAt
  cases s.params.bigEndian
  · simpa [← foldl_reverse_range_eq_sum] using
      foldl_bytes_lt ((List.range n).map fun k => s.byte (byteAddr a k)).reverse
  · simpa [← foldl_range_eq_sum] using
      foldl_bytes_lt ((List.range n).map fun k => s.byte (byteAddr a k))

theorem ofInt_bmod_eq_signExtend (m : Nat) (w : Word) :
    BitVec.ofInt 32 ((w.toNat : Int).bmod (2 ^ m)) = (w.setWidth m).signExtend 32 := by
  rw [BitVec.signExtend, BitVec.toInt_eq_toNat_bmod, BitVec.toNat_setWidth, Int.natCast_mod, Int.emod_bmod]

theorem setWidth_setWidth_of_lt {m : Nat} {w : Word} (h : w.toNat < 2 ^ m) :
    (w.setWidth m).setWidth 32 = w := by
  apply BitVec.eq_of_toNat_eq
  rw [BitVec.toNat_setWidth, BitVec.toNat_setWidth, Nat.mod_eq_of_lt h, Nat.mod_eq_of_lt w.isLt]

theorem loaded_unsigned (s : State) (a : Word) (n : Nat) :
    loaded s a n false = BitVec.ofNat 32 (unsignedAt s a n) := by
  simp [loaded]

/-- The widths that sign-extend (R66). -/
def signExtends : Width → Bool
  | .byte | .half | .word => true
  | .byteU | .halfU => false

/-- The value of the bytes at `a` is the item loaded there, widened (R66). -/
theorem loaded_eq_widen (s : State) (a : Word) (w : Width) :
    loaded s a w.size (signExtends w) = w.widen (s.load a w.size) := by
  have hload := toNat_load s a (size_le_four w)
  have hlt := unsignedAt_lt s a w.size
  cases w with
  | word => exact loaded_word s a
  | byte =>
    rw [Width.widen, sextByte, ← ofInt_bmod_eq_signExtend, hload]
    simp [loaded, signExtends, signedAt, Width.size]
  | half =>
    rw [Width.widen, sextHalf, ← ofInt_bmod_eq_signExtend, hload]
    simp [loaded, signExtends, signedAt, Width.size]
  | byteU =>
    have hroom : (s.load a Width.byteU.size).toNat < 2 ^ 8 := hload ▸ hlt
    rw [Width.widen, zextByte, setWidth_setWidth_of_lt hroom, load_eq_ofNat s a (size_le_four .byteU)]
    exact loaded_unsigned s a 1
  | halfU =>
    have hroom : (s.load a Width.halfU.size).toNat < 2 ^ 16 := hload ▸ hlt
    rw [Width.widen, zextHalf, setWidth_setWidth_of_lt hroom, load_eq_ofNat s a (size_le_four .halfU)]
    exact loaded_unsigned s a 2

/-! ### The record of an access is kept by what follows it -/

section
variable {s u : State} {new : List Access}

theorem recorded_setReg_advance (h : recorded s u new) (r : Reg) (v : Word) :
    recorded s (u.setReg r v).advance new := by
  simpa [recorded] using h

theorem recorded_store_advance (h : recorded s u new) (a : Word) (n : Nat) (w : Word) :
    recorded s (u.store a n w).advance new := by
  simpa [recorded] using h

end

/-! ### Loads and stores of whole items (R163 to R167, R170 to R172) -/

/-- What a load leaves: `v` in its register, and the record of its accesses. -/
theorem result_of_load {i : Instr} {s : State} {new : List Access} {rt : Reg} {v : Word}
    (h : exec i s = .next ((s.record new).setReg rt v).advance) :
    ∃ t, exec i s = .next t ∧ (rt ≠ 0#5 → t.reg rt = v) ∧ recorded s t new ∧
      Frame { regs := [rt], record := true } s t ∧ goesOn s t := by
  refine ⟨_, h, fun hr => ?_, recorded_setReg_advance (recorded_record s new) rt v,
    ((frame_refl.recording rfl new).setReg (by simp) v).advance, goesOn_advance s (by simp) (by simp) (by simp)⟩
  rw [reg_advance, reg_setReg_same _ rt v hr]

/-- What a store of `n` bytes of `w` at `a` leaves: those bytes, and the record of its accesses. -/
theorem result_of_store {i : Instr} {s : State} {new : List Access} {a : Word} {n : Nat} {w : Word}
    (hwf : Memory.wf s.mem = true) (hn : n ≤ 4)
    (h : exec i s = .next ((s.record new).store a n w).advance) :
    ∃ t, exec i s = .next t ∧ (∀ k, k < n → t.byte (byteAddr a k) = storedByte s n w k) ∧ recorded s t new ∧
      Frame { record := true, bytes := within a n } s t ∧ goesOn s t := by
  refine ⟨_, h, fun k hk => ?_, recorded_store_advance (recorded_record s new) a n w,
    ((frame_refl.recording rfl new).store (fun _ hb => hb) w).advance,
    goesOn_advance s (by simp) (by simp) (by simp)⟩
  rw [byte_advance, byte_store_same (s.record new) a n w hwf hn hk, byteAt_eq_storedByte]
  rfl

/-- The instructions `c` load an item of the width `w` (R162). -/
def LoadRow (c : FormMem) (w : Width) : Prop :=
  ∀ rt o base s, exec (c rt o base) s = scalarLoad (s.effAddr base o) w.size w.widen rt s

theorem scalarLoads_rows : ∀ r ∈ scalarLoads, ∃ w, r.2 = (w.size, signExtends w) ∧ LoadRow r.1 w := by
  simp only [scalarLoads, List.forall_mem_cons]
  exact ⟨⟨.byte, rfl, fun _ _ _ _ => rfl⟩, ⟨.byteU, rfl, fun _ _ _ _ => rfl⟩, ⟨.half, rfl, fun _ _ _ _ => rfl⟩,
    ⟨.halfU, rfl, fun _ _ _ _ => rfl⟩, ⟨.word, rfl, fun _ _ _ _ => rfl⟩, by simp⟩

theorem scalarStores_rows : ∀ r ∈ scalarStores, r.2 ≤ 4 ∧ ∀ rt o base s,
    exec (r.1 rt o base) s = scalarStore (s.effAddr base o) r.2 rt s := by
  simp only [scalarStores, List.forall_mem_cons]
  exact ⟨⟨by omega, fun _ _ _ _ => rfl⟩, ⟨by omega, fun _ _ _ _ => rfl⟩, ⟨by omega, fun _ _ _ _ => rfl⟩, by simp⟩

/-- Settles O23: each row runs `scalarLoad` with the widening that gives the value of the bytes. -/
theorem scalarLoadResults : Obligations.ScalarLoadResults := by
  intro c n sg hrow rt o base s a ha hacc
  obtain ⟨w, hw, hx⟩ := scalarLoads_rows _ hrow
  obtain ⟨rfl, rfl⟩ := Prod.mk.inj hw
  rw [loaded_eq_widen]
  exact result_of_load ((hx rt o base s).trans (scalarLoad_ok ha hacc))

/-- Settles O24: each row runs `scalarStore`. -/
theorem scalarStoreResults : Obligations.ScalarStoreResults := by
  intro c n hrow rt o base s a hwf ha hacc
  obtain ⟨hn, hx⟩ := scalarStores_rows _ hrow
  exact result_of_store hwf hn ((hx rt o base s).trans (scalarStore_ok ha hacc))

/-! ### The bytes of a word -/

section
variable (v w old : Word) (b : Byte)

theorem getLsbD_regByte (k i : Nat) : (regByte w k).getLsbD i = (decide (i < 8) && w.getLsbD (8 * k + i)) := by
  rw [regByte, show 256 ^ k = 2 ^ (8 * k) by rw [pow_mul]; rfl, BitVec.getLsbD_ofNat, Nat.testBit_div_two_pow,
    Nat.add_comm i]
  rfl

/-- Two words have one byte in common when its eight bits agree. -/
theorem regByte_eq_of_bits {v w : Word} {j k : Nat}
    (h : ∀ i, i < 8 → v.getLsbD (8 * j + i) = w.getLsbD (8 * k + i)) : regByte v j = regByte w k := by
  apply BitVec.eq_of_getLsbD_eq
  intro i hi
  rw [getLsbD_regByte, getLsbD_regByte, h i hi]

theorem regByte_ushiftRight (m k : Nat) : regByte (w >>> (8 * m)) k = regByte w (m + k) :=
  regByte_eq_of_bits fun i _ => by rw [BitVec.getLsbD_ushiftRight, Nat.mul_add, Nat.add_assoc]

theorem regByte_pushByte_zero : regByte (pushByte v b) 0 = b := by
  apply BitVec.eq_of_getLsbD_eq
  intro i hi
  rw [getLsbD_regByte, pushByte]
  simp [hi]
  omega

theorem regByte_pushByte_succ {k : Nat} (hk : k + 1 < 4) : regByte (pushByte v b) (k + 1) = regByte v k :=
  regByte_eq_of_bits fun i hi => by
    rw [pushByte, show 8 * (k + 1) + i = 8 * k + i + 8 by omega]
    simp
    omega

theorem getLsbD_ones {i : Nat} : (0xFFFFFFFF#32).getLsbD i = decide (i < 32) :=
  BitVec.getLsbD_allOnes (v := 32)

/-- LWL keeps the low `e` bytes of the register; above them come the low bytes of the word (R168). -/
theorem regByte_mergeLeft (e : Nat) {k : Nat} (hk : k < 4) :
    regByte (mergeLeft e w old) k = if e ≤ k then regByte w (k - e) else regByte old k := by
  split
  · next h =>
    refine regByte_eq_of_bits fun i hi => ?_
    have hword : 8 * k + i < 32 := by omega
    have hup : ¬8 * k + i < 8 * e := by omega
    have hlow : 8 * k + i - 8 * e < 32 := by omega
    rw [show 8 * (k - e) + i = 8 * k + i - 8 * e by omega, mergeLeft]
    simp [getLsbD_ones, hword, hup, hlow]
  · next h =>
    refine regByte_eq_of_bits fun i hi => ?_
    have hword : 8 * k + i < 32 := by omega
    have hlow : 8 * k + i < 8 * e := by omega
    rw [mergeLeft]
    simp [hword, hlow]

/-- LWR keeps the high `f` bytes of the register; below them come the high bytes of the word (R169). -/
theorem regByte_mergeRight (f : Nat) {k : Nat} (hk : k < 4) :
    regByte (mergeRight f w old) k = if k < 4 - f then regByte w (f + k) else regByte old k := by
  split
  · next h =>
    refine regByte_eq_of_bits fun i hi => ?_
    have hlow : 8 * f + (8 * k + i) < 32 := by omega
    rw [mergeRight, show 8 * (f + k) + i = 8 * f + (8 * k + i) by omega]
    simp [getLsbD_ones, hlow]
  · next h =>
    refine regByte_eq_of_bits fun i hi => ?_
    have hword : 8 * k + i < 32 := by omega
    have hup : ¬8 * f + (8 * k + i) < 32 := by omega
    rw [mergeRight]
    simp [getLsbD_ones, hword, hup, BitVec.getLsbD_of_ge w _ (not_lt.mp hup)]

end

/-- Byte `k` of a number made of bytes, the most significant last. -/
theorem regByte_foldr_pushByte : ∀ {bs : List Byte} {k : Nat} {b : Byte}, bs[k]? = some b → k < 4 →
    regByte (bs.foldr (fun b v => pushByte v b) 0) k = b
  | [], _, _, hb, _ => by simp at hb
  | c :: bs, 0, b, hb, _ => by
    obtain rfl : c = b := by simpa using hb
    exact regByte_pushByte_zero _ c
  | c :: bs, k + 1, b, hb, hk => by
    rw [List.foldr_cons, regByte_pushByte_succ _ c hk]
    exact regByte_foldr_pushByte (by simpa using hb) (by omega)

/-- The bytes of a word that was read are those in memory, in the order of R64. -/
theorem regByte_load (s : State) (a : Word) {k : Nat} (hk : k < 4) :
    regByte (s.load a 4) k = s.byte (byteAddr a (if s.params.bigEndian then 3 - k else k)) := by
  rw [State.load, assemble_eq_foldl]
  cases s.params.bigEndian
  · rw [if_neg (by simp), if_neg (by simp), List.foldl_reverse]
    exact regByte_foldr_pushByte (by simp [State.bytes, hk]) hk
  · rw [if_pos rfl, if_pos rfl, List.foldl_eq_foldr_reverse]
    refine regByte_foldr_pushByte ?_ hk
    have hlen : (s.bytes a 4).length = 4 := by simp [State.bytes]
    have hlt : 3 - k < 4 := by omega
    rw [List.getElem?_reverse (by omega), hlen, show 4 - 1 - k = 3 - k by omega]
    simp [State.bytes, hlt]

theorem byteAddr_wordBase (a : Word) : byteAddr (wordBase a) (a.toNat % 4) = a := by
  rw [byteAddr, wordBase_eq_sub, sub_add_cancel]

/-! ### The bytes of an unaligned access (R168, R169, R173, R174) -/

section
variable (up : Bool) (a : Word)

theorem partialCount_le_four : partialCount up a ≤ 4 := by
  cases up <;> simp [partialCount]
  omega

variable {j : Nat} (hj : j < partialCount up a)
include hj

/-- Where byte `j` of the access stands, counted from its lowest address. -/
theorem partialAddr_from_start :
    partialAddr up a j = byteAddr (partialStart up a) (if up then j else partialCount up a - 1 - j) := by
  cases up
  · simp only [partialCount, Bool.false_eq_true, if_false] at hj
    simp only [partialAddr, partialStart, partialCount, byteAddr, Bool.false_eq_true, if_false,
      Nat.add_sub_cancel]
    bv_omega
  · rfl

/-- Where it stands in the word that holds `a`. -/
theorem partialAddr_from_word :
    partialAddr up a j =
      byteAddr (wordBase a) (if up then 4 - partialCount up a + j else partialCount up a - 1 - j) := by
  rw [partialAddr_from_start up a hj]
  cases up
  · rw [wordBase_eq_sub]
    rfl
  · simp only [partialCount, if_true] at hj ⊢
    have hindex : 4 - (4 - a.toNat % 4) + j = a.toNat % 4 + j := by omega
    rw [hindex, ← byteAddr_byteAddr, byteAddr_wordBase]
    rfl

end

section
variable (be : Bool) (a : Word) {j : Nat}

theorem leftKept_eq : leftKept be a = 4 - partialCount be a := by
  rw [← sub_leftKept_eq_partialCount]
  cases be <;> simp [leftKept, byteInWord] <;> omega

theorem rightKept_eq : rightKept be a = 4 - partialCount (!be) a := by
  rw [← sub_rightKept_eq_partialCount]
  cases be <;> simp [rightKept, byteInWord] <;> omega

end

/-! ### LWL and LWR (R168, R169) -/

section
variable {s : State} {a : Word} {j : Nat}

/-- LWL puts the bytes from `a` to the end of its word into the left part of the register (R168). -/
theorem regByte_loadLeft (old : Word) (hj : j < 4) :
    regByte (mergeLeft (leftKept s.params.bigEndian a) (s.load (wordBase a) 4) old) (3 - j) =
      if j < partialCount s.params.bigEndian a then s.byte (partialAddr s.params.bigEndian a j)
      else regByte old (3 - j) := by
  have hle := partialCount_le_four s.params.bigEndian a
  rw [regByte_mergeLeft _ _ _ (by omega), leftKept_eq]
  refine if_ctx_congr (by omega) (fun hc => ?_) fun _ => rfl
  rw [partialAddr_from_word _ a hc, regByte_load s _ (by omega)]
  congr 2
  split <;> omega

/-- LWR puts the bytes from the start of the word of `a` to `a` into the right part (R169). -/
theorem regByte_loadRight (old : Word) (hj : j < 4) :
    regByte (mergeRight (rightKept s.params.bigEndian a) (s.load (wordBase a) 4) old) j =
      if j < partialCount (!s.params.bigEndian) a then s.byte (partialAddr (!s.params.bigEndian) a j)
      else regByte old j := by
  have hle := partialCount_le_four (!s.params.bigEndian) a
  rw [regByte_mergeRight _ _ _ hj, rightKept_eq]
  refine if_ctx_congr (by omega) (fun hc => ?_) fun _ => rfl
  rw [partialAddr_from_word _ a hc, regByte_load s _ (by omega)]
  congr 2
  generalize partialCount (!s.params.bigEndian) a = n at hle hc ⊢
  cases s.params.bigEndian <;> simp
  omega

end

theorem partialLoad_ok {a : Word} {merge : Word → Word → Word} {rt : Reg} {s : State}
    (h : accessible s (scalarAccess .read (wordBase a) 4)) :
    partialLoad a merge rt s = .next ((s.record (scalarAccess .read (wordBase a) 4)).setReg rt
      (merge (s.load (wordBase a) 4) (s.reg rt))).advance :=
  accessing_ok h _

/-- Settles O25: both read the word that holds the address, and merge its bytes into the register. -/
theorem partialLoadResults : Obligations.PartialLoadResults := by
  intro c left hrow rt o base s a up whole hacc
  have hwhole : whole = scalarAccess .read (wordBase a) 4 := by rw [wordBase_eq_sub]
  rw [hwhole] at hacc ⊢
  simp only [List.mem_cons, Prod.mk.injEq, List.not_mem_nil, or_false] at hrow
  rcases hrow with ⟨rfl, rfl⟩ | ⟨rfl, rfl⟩
  · obtain ⟨t, hx, hreg, hrest⟩ := result_of_load (i := .lwl rt o base) (partialLoad_ok hacc)
    refine ⟨t, hx, fun hr j hj => ?_, hrest⟩
    have hup : up = s.params.bigEndian := Bool.true_beq _
    rw [hreg hr, hup]
    exact regByte_loadLeft _ hj
  · obtain ⟨t, hx, hreg, hrest⟩ := result_of_load (i := .lwr rt o base) (partialLoad_ok hacc)
    refine ⟨t, hx, fun hr j hj => ?_, hrest⟩
    have hup : up = !s.params.bigEndian := Bool.false_beq _
    rw [hreg hr, hup]
    exact regByte_loadRight _ hj

/-! ### SWL and SWR (R173, R174) -/

theorem storedByte_eq_regByte (s : State) (n : Nat) (w : Word) (k : Nat) :
    storedByte s n w k = regByte w (if s.params.bigEndian then n - 1 - k else k) := rfl

section
variable {s : State} {a w : Word} {j : Nat}

/-- SWL stores the bytes of the left part of the register, the most significant first or last (R173). -/
theorem storedByte_left (hj : j < partialCount s.params.bigEndian a) :
    storedByte s (partialCount s.params.bigEndian a) (w >>> (8 * leftKept s.params.bigEndian a))
        (if s.params.bigEndian then j else partialCount s.params.bigEndian a - 1 - j) = regByte w (3 - j) := by
  have hle := partialCount_le_four s.params.bigEndian a
  rw [storedByte_eq_regByte, regByte_ushiftRight, leftKept_eq]
  congr 1
  split <;> omega

/-- SWR stores the bytes of the right part (R174). -/
theorem storedByte_right (hj : j < partialCount (!s.params.bigEndian) a) :
    storedByte s (partialCount (!s.params.bigEndian) a) w
        (if !s.params.bigEndian then j else partialCount (!s.params.bigEndian) a - 1 - j) = regByte w j := by
  rw [storedByte_eq_regByte]
  congr 1
  generalize partialCount (!s.params.bigEndian) a = n at hj ⊢
  cases s.params.bigEndian <;> simp
  omega

end

theorem partialStore_ok {start : Word} {n : Nat} {v : Word} {s : State}
    (h : accessible s (scalarAccess .write start n)) :
    partialStore start n v s = .next ((s.record (scalarAccess .write start n)).store start n v).advance :=
  accessing_ok h _

/-- What a store of the bytes of an unaligned access leaves. -/
theorem result_of_partialStore {i : Instr} {s : State} {up : Bool} {a v : Word} (hwf : Memory.wf s.mem = true)
    (hacc : accessible s (scalarAccess .write (partialStart up a) (partialCount up a)))
    (h : exec i s = partialStore (partialStart up a) (partialCount up a) v s) :
    ∃ t, exec i s = .next t ∧
      (∀ j, j < partialCount up a → t.byte (partialAddr up a j) =
        storedByte s (partialCount up a) v (if up then j else partialCount up a - 1 - j)) ∧
      recorded s t (scalarAccess .write (partialStart up a) (partialCount up a)) ∧
      Frame { record := true, bytes := within (partialStart up a) (partialCount up a) } s t ∧ goesOn s t := by
  obtain ⟨t, hx, hbytes, hrest⟩ :=
    result_of_store hwf (partialCount_le_four up a) (h.trans (partialStore_ok hacc))
  refine ⟨t, hx, fun j hj => ?_, hrest⟩
  rw [partialAddr_from_start up a hj, hbytes _ (by split <;> omega)]

/-- Settles O26: each stores the bytes that change, from the lowest address up. -/
theorem partialStoreResults : Obligations.PartialStoreResults := by
  intro c left hrow rt o base s a up span hwf hacc
  simp only [List.mem_cons, Prod.mk.injEq, List.not_mem_nil, or_false] at hrow
  rcases hrow with ⟨rfl, rfl⟩ | ⟨rfl, rfl⟩
  · have hup : up = s.params.bigEndian := Bool.true_beq _
    have hx : exec (.swl rt o base) s = partialStore (partialStart up a) (partialCount up a)
        (s.reg rt >>> (8 * leftKept s.params.bigEndian a)) s := by
      rw [hup, ← leftStart_eq_partialStart, ← sub_leftKept_eq_partialCount]
      rfl
    obtain ⟨t, hx, hbytes, hrest⟩ := result_of_partialStore hwf hacc hx
    refine ⟨t, hx, fun j hj => ?_, hrest⟩
    rw [hbytes j hj, hup]
    exact storedByte_left (hup ▸ hj)
  · have hup : up = !s.params.bigEndian := Bool.false_beq _
    have hx : exec (.swr rt o base) s = partialStore (partialStart up a) (partialCount up a) (s.reg rt) s := by
      rw [hup, ← rightStart_eq_partialStart, ← sub_rightKept_eq_partialCount]
      rfl
    obtain ⟨t, hx, hbytes, hrest⟩ := result_of_partialStore hwf hacc hx
    refine ⟨t, hx, fun j hj => ?_, hrest⟩
    rw [hbytes j hj, hup]
    exact storedByte_right (hup ▸ hj)

/-! ### SC (R176) -/

section
variable {s : State} {a : Word} {rt base : Reg} {o : BitVec 16}

theorem linked_of_storesForSure (h : storesForSure s a) : s.linked a = true := by
  obtain ⟨hbit, hclean, haddr⟩ := h
  simp [State.linked, hbit, hclean, haddr]

theorem scSucceeds_of_storesForSure (h : storesForSure s a) : s.scSucceeds a = true := by
  rw [State.scSucceeds, linked_of_storesForSure h, Bool.true_or]

theorem scDraws_of_storesForSure (h : storesForSure s a) : s.scDraws a = 0 :=
  if_pos (linked_of_storesForSure h)

/-- An SC that finds LLbit set makes its access, stores and writes 1. -/
theorem exec_sc_success (ha : (s.effAddr base o).toNat % 4 = 0)
    (hsc : s.scSucceeds (s.effAddr base o) = true) :
    exec (.sc rt o base) s = s.accessing (scalarAccess .write (s.effAddr base o) 4) fun t =>
      .next (({ t.store (s.effAddr base o) 4 (s.reg rt) with llBit := false }.setReg rt 1#32).consume
        (s.scDraws (s.effAddr base o))).advance := by
  change execSc rt o base s = _
  rw [execSc, misaligned_eq_false.mpr ha, if_neg (by simp), if_pos hsc]

/-- An SC that finds it clear accesses nothing and writes 0. -/
theorem exec_sc_failure (ha : (s.effAddr base o).toNat % 4 = 0)
    (hsc : s.scSucceeds (s.effAddr base o) = false) :
    exec (.sc rt o base) s =
      .next (({ s with llBit := false, llClean := false }.setReg rt 0#32).consume
        (s.scDraws (s.effAddr base o))).advance := by
  change execSc rt o base s = _
  rw [execSc, misaligned_eq_false.mpr ha, if_neg (by simp), hsc, if_neg (by simp)]

/-- What an SC that fails leaves: 0 in its register and LLbit clear. -/
theorem result_of_sc_failure (m : Touches) (ha : (s.effAddr base o).toNat % 4 = 0)
    (hsc : s.scSucceeds (s.effAddr base o) = false) (hr : rt ∈ m.regs) (hl : m.link = true)
    (hc : m.record = true) (hd : m.draws = true) :
    ∃ t, exec (.sc rt o base) s = .next t ∧ (rt ≠ 0#5 → t.reg rt = 0#32) ∧ t.llBit = false ∧
      t.llAddr = s.llAddr ∧ (∀ b, t.byte b = s.byte b) ∧ t.pending = s.pending ∧ t.stored = s.stored ∧
      Frame m s t ∧ goesOn s t := by
  refine ⟨_, exec_sc_failure ha hsc, fun h0 => ?_, by simp, by simp, fun b => ?_, by simp, by simp,
    (((frame_refl.setLink hl hc _ _ _).setReg hr _).consume fun _ => hd).advance,
    goesOn_advance s (by simp) (by simp) (by simp)⟩
  · rw [reg_advance, reg_consume, reg_setReg_same _ rt _ h0]
  · rw [byte_advance, byte_consume, byte_setReg]
    rfl

/-- What an SC that succeeds leaves: the word stored, 1 in its register and LLbit clear. -/
theorem result_of_sc_success (hwf : Memory.wf s.mem = true) (ha : (s.effAddr base o).toNat % 4 = 0)
    (hacc : accessible s (scalarAccess .write (s.effAddr base o) 4))
    (hsc : s.scSucceeds (s.effAddr base o) = true) :
    ∃ t, exec (.sc rt o base) s = .next t ∧ t.draws = s.draws + s.scDraws (s.effAddr base o) ∧
      (rt ≠ 0#5 → t.reg rt = 1#32) ∧ t.llBit = false ∧ t.llAddr = s.llAddr ∧
      (∀ k, k < 4 → t.byte (byteAddr (s.effAddr base o) k) = storedByte s 4 (s.reg rt) k) ∧
      recorded s t (scalarAccess .write (s.effAddr base o) 4) ∧
      Frame { regs := [rt], link := true, record := true, draws := true, bytes := within (s.effAddr base o) 4 } s t ∧
      goesOn s t := by
  refine ⟨_, (exec_sc_success ha hsc).trans (accessing_ok hacc _), by simp, fun h0 => ?_, by simp, by simp,
    fun k hk => ?_, by simp [recorded, writtenSpans], ?_, goesOn_advance s (by simp) (by simp) (by simp)⟩
  · rw [reg_advance, reg_consume, reg_setReg_same _ rt _ h0]
  · rw [byte_advance, byte_consume, byte_setReg]
    exact byte_store_word (s.record _) _ _ hwf hk
  · exact (((((frame_refl.recording rfl _).store (fun _ hb => hb) _).setLink rfl rfl _ _ _).setReg (by simp) _).consume
      fun _ => rfl).advance

end

/-- Settles O28: `scSucceeds` decides between the two outcomes, and holds after a clean LL. -/
theorem storeConditionalResult : Obligations.StoreConditionalResult := by
  intro rt o base s a hwf ha hacc
  cases hsc : s.scSucceeds a with
  | true =>
    obtain ⟨t, hx, hdraws, hreg, hbit, haddr, hbytes, hrec, hrest⟩ := result_of_sc_success hwf ha hacc hsc
    refine ⟨t, true, hx, fun hsure => ⟨rfl, ?_⟩, hreg, hbit, haddr, fun _ => ⟨hbytes, hrec⟩, by simp, hrest⟩
    rw [hdraws, scDraws_of_storesForSure hsure, Nat.add_zero]
  | false =>
    obtain ⟨t, hx, hreg, hbit, haddr, hbytes, hpending, hstored, hrest⟩ :=
      result_of_sc_failure { regs := [rt], link := true, record := true, draws := true, bytes := within a 4 } ha hsc
        (List.mem_singleton_self rt) rfl rfl rfl
    refine ⟨t, false, hx, fun hsure => ?_, hreg, hbit, haddr, by simp, fun _ => ⟨hbytes, hpending, hstored⟩, hrest⟩
    simp [scSucceeds_of_storesForSure hsure] at hsc

/-! ### Bus errors (R437) -/

theorem makesAccess_unbacked {i : Instr} {s : State} {a b : Word} {align : Nat} {x : Access}
    (h : MakesAccess i s a align x) (ha : a.toNat % align = 0)
    (hb : Params.firstUnbacked s.params x.addr x.size = some b) : traps i s (.busError b) := by
  obtain ⟨k, hx⟩ := h
  refine traps_of_raise ?_
  rw [hx, misaligned_eq_false.mpr ha, if_neg (by simp)]
  exact accessing_unbacked k (by simp [hb])

/-- Settles O31: the bus check of the one access of each row comes after its alignment. An SC makes its access
only if it succeeds. -/
theorem scalarBusErrors : Obligations.ScalarBusErrors := by
  intro rt o base s b a
  refine ⟨fun m hm ha hb => makesAccess_unbacked (scalarMemory_rows m hm rt o base s) ha hb,
    fun ha hb => ⟨fun hsure => makesAccess_unbacked (makesAccess_sc hsure) ha hb, ?_⟩⟩
  cases hsc : s.scSucceeds a with
  | true =>
    exact .inl (traps_of_raise ((exec_sc_success ha hsc).trans (accessing_unbacked _ (by simp [scalarAccess, a, hb]))))
  | false =>
    obtain ⟨t, hx, hreg, -, -, -, hpending, -, hrest⟩ :=
      result_of_sc_failure { regs := [rt], link := true, record := true, draws := true } ha hsc
        (List.mem_singleton_self rt) rfl rfl rfl
    exact .inr ⟨t, hx, hreg, hpending, hrest⟩

/-! ### Refused jumps and branches (R178, R182, R189, R190) -/

/-- Every jump or branch looks first whether it stands in a delay slot. -/
theorem exec_jump {i : Instr} (s : State) (h : isJump i = true) : ∃ k, exec i s = notInSlot s k := by
  cases i with
  | j | jal | jr | jalr
  | beq | bne | blez | bgtz | bltz | bgez | bltzal | bgezal
  | beql | bnel | blezl | bgtzl | bltzl | bgezl | bltzall | bgezall => exact ⟨_, rfl⟩
  | _ => exact absurd h Bool.false_ne_true

theorem linking_refused {s : State} (hs : s.slot = none) (k : State → Result) :
    linking 31#5 s k = .refused .linkRegisterIsSource := by
  rw [linking, notInSlot_ok hs, if_pos rfl]

/-- Settles O36: the delay slot is the first check, the link register the second. -/
theorem undefinedJumpsAreRefused : Obligations.UndefinedJumpsAreRefused := by
  refine ⟨fun i s hj hs => ?_, fun rs s hs => (notInSlot_ok hs _).trans (if_pos rfl), fun o s hs => ?_⟩
  · obtain ⟨k, hx⟩ := exec_jump s hj
    exact hx.trans (notInSlot_refused hs k)
  · simp only [List.forall_mem_cons]
    exact ⟨linking_refused hs _, linking_refused hs _, linking_refused hs _, linking_refused hs _, by simp⟩

/-! ### Traps (R200 to R214) -/

theorem trapsIff_of_trapIf {i : Instr} {s : State} {c : Bool} (h : exec i s = trapIf c s) : trapsIff i s c := by
  refine ⟨fun hc => ⟨s.advance, ?_, frame_refl.advance, goesOn_advance s rfl rfl rfl⟩, fun hc => traps_of_raise ?_⟩
  · simp [h, trapIf, hc]
  · simp [h, trapIf, hc]

section
variable (a b : Word)

theorem decide_toInt_le : decide (b.toInt ≤ a.toInt) = !lessSigned a b := by
  rw [lessSigned, ← decide_not, decide_eq_decide, not_lt]

theorem decide_toNat_le : decide (b.toNat ≤ a.toNat) = !lessUnsigned a b := by
  rw [lessUnsigned, ← decide_not, decide_eq_decide, not_lt]

theorem decide_toNat_eq : decide (a.toNat = b.toNat) = (a == b) := by
  rw [beq_eq_decide, decide_eq_decide, BitVec.toNat_inj]

end

theorem registerTraps_rows : ∀ r ∈ registerTraps, ∀ (rs rt : Reg) (code : BitVec 10) (s : State),
    exec (r.1 rs rt code) s = trapIf (r.2 (s.reg rs) (s.reg rt)) s := by
  simp only [registerTraps, List.forall_mem_cons, ne_eq, decide_not, decide_toInt_le, decide_toNat_le, decide_toNat_eq]
  refine ⟨?_, ?_, ?_, ?_, ?_, ?_, by simp⟩ <;> intros <;> rfl

theorem immediateTraps_rows : ∀ r ∈ immediateTraps, ∀ (rs : Reg) (imm : BitVec 16) (s : State),
    exec (r.1 rs imm) s = trapIf (r.2 (s.reg rs) (BitVec.ofInt 32 imm.toInt)) s := by
  simp only [immediateTraps, List.forall_mem_cons, ne_eq, decide_not, decide_toInt_le, decide_toNat_le, decide_toNat_eq]
  refine ⟨?_, ?_, ?_, ?_, ?_, ?_, by simp⟩ <;> intros <;> rfl

/-- Settles O37: each row runs `trapIf` on its comparison. -/
theorem trapInstructions : Obligations.TrapInstructions :=
  ⟨fun _ _ hrow rs rt code s => trapsIff_of_trapIf (registerTraps_rows _ hrow rs rt code s),
    fun _ _ hrow rs imm s => trapsIff_of_trapIf (immediateTraps_rows _ hrow rs imm s),
    fun _ _ => ⟨traps_of_raise rfl, traps_of_raise rfl⟩⟩

/-! ### Coprocessors that cannot be used (R234 to R237) -/

theorem cop1Instr_unusable {s : State} (h : s.params.hasFpu = false) (k : Result) :
    cop1Instr s k = raise (.coprocessorUnusable 1#2) s := by
  simp [cop1Instr, h]

theorem undefinedCop2_reserved {s : State} (h : s.cu2 = true) (i : Instr) :
    undefinedCop2 i s = raise (.reservedInstruction (encode i)) s := by
  simp [undefinedCop2, h]

/-- Settles O38: the check of the coprocessor is all that these instructions run. -/
theorem unusableCoprocessors : Obligations.UnusableCoprocessors := by
  intro f rt o base low s
  refine ⟨rfl, fun hf => ?cop1, ?cop3, fun hc => ?cop2⟩
  all_goals simp only [List.forall_mem_cons]
  case cop1 =>
    have unusable : ∀ {i : Instr} {k : Result}, exec i s = cop1Instr s k → traps i s (.coprocessorUnusable 1#2) :=
      fun h => traps_of_raise (h.trans (cop1Instr_unusable hf _))
    exact ⟨unusable rfl, unusable rfl, unusable rfl, unusable rfl, unusable rfl, by simp⟩
  case cop3 => exact ⟨traps_of_raise rfl, traps_of_raise rfl, traps_of_raise rfl, by simp⟩
  case cop2 =>
    have reserved : ∀ {i : Instr}, exec i s = undefinedCop2 i s → traps i s (.reservedInstruction (encode i)) :=
      fun h => traps_of_raise (h.trans (undefinedCop2_reserved hc _))
    exact ⟨reserved rfl, reserved rfl, reserved rfl, reserved rfl, reserved rfl, reserved rfl, reserved rfl,
      reserved rfl, reserved rfl, reserved rfl, by simp⟩

end Sys2Proof.TransferRules

/-! SUPPORT. The statements of the vector unit control family: the operands the spec calls unpredictable or
undefined, and their refusals (R240 to R242, R251, R264, R381, R385). -/

namespace Sys2Proof.ControlRules

open Sys2Proof.Machine Sys2Proof.Safety Sys2Proof.Claims Sys2Proof.StateRules Sys2Proof.MemoryRules

/-! ### Numbers of no control register (R240) -/

section
variable {s : State} {rt : Reg} {cs : BitVec 5} {v : Word}

theorem readVcr_eq_none (h : cs.toNat ∉ [0, 1, 2, 4, 8, 12]) : s.readVcr cs = none := by
  unfold State.readVcr
  split
  case h_7 => rfl
  all_goals simp at h

theorem writeVcr_eq_none (h : cs.toNat ∉ [0, 1, 2, 4, 8, 12]) : s.writeVcr cs v = none := by
  unfold State.writeVcr
  split
  case h_7 => rfl
  all_goals simp at h

theorem cfvu_refused (hc : s.cu2 = true) (h : cs.toNat ∉ [0, 1, 2, 4, 8, 12]) :
    exec (.cfvu rt cs) s = .refused .invalidControlRegister := by
  have hu : vuUsable (.cfvu rt cs) s := ⟨hc, by simp [Instr.vregs]⟩
  change execCfvu rt cs s = _
  rw [execCfvu, vuIssue_ok hu, readVcr_eq_none h]

theorem ctvu_refused (hc : s.cu2 = true) (h : cs.toNat ∉ [0, 1, 2, 4, 8, 12]) :
    exec (.ctvu rt cs) s = .refused .invalidControlRegister := by
  have hu : vuUsable (.ctvu rt cs) s := ⟨hc, by simp [Instr.vregs]⟩
  change execCtvu rt cs s = _
  rw [execCtvu, vuIssue_ok hu, writeVcr_eq_none h]

end

/-! ### Unit-stride forms whose increment is their base (R264) -/

theorem unitRow_refused {tr : Transfer} {c : Form3} {n : Nat} {vd : VReg} {r : Reg} {s : State}
    (h : UnitRow tr c n) (hr : vecReady (c vd r r) s) : exec (c vd r r) s = .refused .incrementIsBase := by
  obtain ⟨w, -, hx⟩ := h
  rw [hx, unitStride, vecIssue_ok hr, if_pos rfl]

/-! ### Configuration words that are not valid (R381, R385) -/

/-- The mask keeps bits 31:12 and 6:5 in their places. -/
theorem and_fxUnusedMask (c : Word) :
    c &&& fxUnusedMask = (c >>> 12 <<< 12) ||| ((c.extractLsb' 5 2).setWidth 32 <<< 5) := by
  apply BitVec.eq_of_getLsbD_eq
  intro i hi
  rw [BitVec.getLsbD_and]
  interval_cases i <;> simp [fxUnusedMask]

theorem unusedBits_eq_zero_iff (c : Word) :
    c &&& fxUnusedMask = 0#32 ↔ c.toNat / 2 ^ 12 = 0 ∧ c.toNat / 32 % 4 = 0 := by
  have hc := c.isLt
  have hhigh : c >>> 12 <<< 12 = 0#32 ↔ c.toNat / 2 ^ 12 = 0 := by
    rw [← BitVec.toNat_inj, BitVec.toNat_shiftLeft, BitVec.toNat_ushiftRight, Nat.shiftLeft_eq,
      Nat.shiftRight_eq_div_pow, BitVec.toNat_ofNat]
    omega
  have hmid : (c.extractLsb' 5 2).setWidth 32 <<< 5 = 0#32 ↔ c.toNat / 32 % 4 = 0 := by
    rw [← BitVec.toNat_inj, BitVec.toNat_shiftLeft, BitVec.toNat_setWidth, BitVec.extractLsb'_toNat,
      Nat.shiftLeft_eq, Nat.shiftRight_eq_div_pow, BitVec.toNat_ofNat]
    omega
  rw [and_fxUnusedMask, BitVec.or_eq_zero_iff, hhigh, hmid]

theorem fxClipam_reserved_iff (c : Word) : fxClipam c = 0b11#2 ↔ c.toNat / 128 % 4 = 3 := by
  rw [← BitVec.toNat_inj, fxClipam, BitVec.extractLsb'_toNat, Nat.shiftRight_eq_div_pow]
  rfl

/-- Without T0's extensions an instruction of the table runs the architectural meaning. -/
theorem exec_fixed_arch {c : BitVec 5 → BitVec 5 → BitVec 5 → BitVec 5 → Instr} {f : Form} {k : Fx} {vw : VReg}
    {x y : BitVec 5} {rd : Reg} {s : State} (hrow : (c, f, k) ∈ fixed) (hr : vecReady (c vw x y rd) s)
    (h0 : s.params.t0 = none) :
    exec (c vw x y rd) s = fxArch (fxKind k) vw (formPairs f s x y) (s.reg rd) s.vlr.toNat s := by
  rw [(fixed_rows _ hrow vw x y rd s).1, fixedPoint, vecIssue_ok hr, h0]

section
variable {k : FxKind} {vw : VReg} {ab : Pairs} {c : Word} {n : Nat} {s : State}

theorem fxArch_unusedBits (h : c.toNat / 2 ^ 12 ≠ 0 ∨ c.toNat / 32 % 4 ≠ 0) :
    fxArch k vw ab c n s = .refused .configUnusedBits := by
  rw [fxArch, if_pos]
  rw [ne_eq, unusedBits_eq_zero_iff]
  exact not_and_or.mpr h

theorem fxArch_clipamReserved (hhigh : c.toNat / 2 ^ 12 = 0) (hmid : c.toNat / 32 % 4 = 0)
    (hclip : c.toNat / 128 % 4 = 3) : fxArch k vw ab c n s = .refused .clipamReserved := by
  rw [fxArch, if_neg (not_not.mpr ((unusedBits_eq_zero_iff c).mpr ⟨hhigh, hmid⟩)),
    if_pos ((fxClipam_reserved_iff c).mpr hclip)]

end

/-! ### Extracts from outside the register (R251) -/

/-- The sum of `vlr` and the index is tested modulo 256 first, and then as it is. -/
theorem vextV_refused {vd vt : VReg} {rd : Reg} {s : State} (hr : vecReady (.vextV vd vt rd) s)
    (hwrap : (s.vlr.toNat + (s.reg rd).toNat % 256) % 256 ≤ 32) (hsum : 32 < s.vlr.toNat + (s.reg rd).toNat % 256) :
    exec (.vextV vd vt rd) s = .refused .extractOutsideRegister := by
  change execVextV vd vt rd s = _
  rw [execVextV, vecIssue_ok hr, index_eq, if_neg (Nat.not_lt.mpr hwrap), if_pos hsum]

/-- Settles O43: each refusal is the first check past the issue of its instruction that fails. -/
theorem unpredictableOperandsAreRefused : Obligations.UnpredictableOperandsAreRefused := by
  refine ⟨fun rt cs s hc hcs => ⟨cfvu_refused hc hcs, ctvu_refused hc hcs⟩, fun c hc vd r s hr => ?unit,
    fun c f k hrow vw x y rd s hr h0 => ?fixed, fun vd vt rd s hr => vextV_refused hr⟩
  case unit =>
    rcases hc with hc | hc <;> obtain ⟨row, hrow, rfl⟩ := List.mem_map.mp hc
    · exact unitRow_refused (unitRow_of_unitLoads row hrow) hr
    · exact unitRow_refused (unitRow_of_unitStores row hrow) hr
  case fixed =>
    rw [exec_fixed_arch hrow hr h0]
    exact ⟨fxArch_unusedBits, fxArch_clipamReserved⟩

end Sys2Proof.ControlRules

/-! SUPPORT. The statements of the insert and extract family (R250 to R253). -/

namespace Sys2Proof.InsertExtractRules

open Sys2Proof.Machine Sys2Proof.Safety Sys2Proof.Claims Sys2Proof.Scope Sys2Proof.StateRules

section
variable {s : State} {vd vt : VReg} {rt rd : Reg} {k : Elem}

theorem elemAt_val (s : State) (r : VReg) (k : Elem) : s.elemAt r k.val = s.elem r k := by
  simp [State.elemAt, State.elem]

/-! ### What the three instructions run when the index is within the register -/

/-- Neither range check of R251 stops an extract from within the register. -/
theorem exec_vextV (hr : vecReady (.vextV vd vt rd) s) (hsum : s.vlr.toNat + (s.reg rd).toNat % 256 ≤ 32) :
    exec (.vextV vd vt rd) s =
      .next (s.setElems vd s.vlr.toNat (fun i => s.elemAt vt ((s.reg rd).toNat % 256 + i.val))
        fun i => s.waitsAt vt ((s.reg rd).toNat % 256 + i.val)).advance := by
  have hlow : (s.vlr.toNat + (s.reg rd).toNat % 256) % 256 ≤ 32 := (Nat.mod_le _ _).trans hsum
  change execVextV vd vt rd s = _
  rw [execVextV, vecIssue_ok hr, index_eq, if_neg (Nat.not_lt.mpr hlow), if_neg (Nat.not_lt.mpr hsum)]

theorem exec_vinsS (hu : vuUsable (.vinsS rt vd rd) s) (hk : k.val = (s.reg rd).toNat % 256) :
    exec (.vinsS rt vd rd) s =
      .next (s.setElemsWhere vd Config.mvl (fun i => i.val == k.val) (fun _ => s.reg rt) noWaits).advance := by
  change execVinsS rt vd rd s = _
  rw [execVinsS, vuIssue_ok hu, index_eq, ← hk, if_neg (Nat.not_le.mpr k.isLt)]

theorem exec_vextS (hu : vuUsable (.vextS rt vd rd) s) (hk : k.val = (s.reg rd).toNat % 256) :
    exec (.vextS rt vd rd) s = writeReg rt (s.elem vd k) s := by
  change execVextS rt vd rd s = _
  rw [execVextS, vuIssue_ok hu, index_eq, ← hk, if_neg (Nat.not_le.mpr k.isLt), elemAt_val]

/-! ### The elements of the written register -/

/-- The first `n` elements are those of `vt` from number `start` on, and the others are kept. -/
theorem elem_setElems_elemAt (h0 : vd ≠ 0#5) (hd : vd.toNat < Config.nvreg) (n start : Nat) (d : Waits) (e : Elem) :
    let t := s.setElems vd n (fun i => s.elemAt vt (start + i.val)) d
    (e.val < n → ∀ k : Elem, k.val = start + e.val → t.elem vd e = s.elem vt k) ∧
      (n ≤ e.val → t.elem vd e = s.elem vd e) := by
  refine ⟨fun he k hk => ?_, elem_setElems_beyond s vd vd _ d⟩
  rw [elem_setElems_same s vd _ _ d e h0 hd, if_pos he, ← hk, elemAt_val]

theorem elem_setElemsWhere_one (h0 : vd ≠ 0#5) (hd : vd.toNat < Config.nvreg) (k : Elem) (v : Word) (d : Waits)
    (e : Elem) :
    (s.setElemsWhere vd Config.mvl (fun i => i.val == k.val) (fun _ => v) d).elem vd e =
      if e = k then v else s.elem vd e := by
  rw [elem_setElemsWhere_same s vd _ _ _ d e h0 hd]
  simp [Fin.ext_iff]

end

/-- Settles O44: VEXT.V and VINS.S each write one vector register and go on, VEXT.S one scalar register. -/
theorem insertExtractResults : Obligations.InsertExtractResults := by
  refine ⟨fun vd vt rd s hr => ?vextV, fun rt vd rd s k hk => ⟨fun hu => ?vinsS, fun hu => ?vextS⟩⟩
  case vextV =>
    intro start hsum
    refine ⟨_, exec_vextV hr hsum, fun h0 e => ?_, (frame_refl.setElems (by simp) _ _ _).advance,
      goesOn_advance s (by simp) (by simp) (by simp)⟩
    rw [elem_advance]
    exact elem_setElems_elemAt h0 (hr.1.2 vd (by simp [Instr.vregs])) _ start _ e
  case vinsS =>
    refine ⟨_, exec_vinsS hu hk, fun h0 e => ?_, (frame_refl.setElemsWhere (by simp) _ _ _ _).advance,
      goesOn_advance s (by simp) (by simp) (by simp)⟩
    rw [elem_advance]
    exact elem_setElemsWhere_one h0 (hu.2 vd (by simp [Instr.vregs])) k _ _ e
  case vextS => exact setsReg_of_writeReg (exec_vextS hu hk)

end Sys2Proof.InsertExtractRules

/-! SUPPORT. The statements of the vector load and store family: the unit-stride forms (R264 to R269, R280 to
R282), and the strided and indexed loads (R270 to R279). -/

namespace Sys2Proof.VectorTransferRules

open Sys2Proof.Machine Sys2Proof.Safety Sys2Proof.Claims Sys2Proof.StateRules Sys2Proof.MemoryRules
  Sys2Proof.TransferRules

/-! ### The rows of the loads, with the width that widens their elements (R66) -/

theorem unitLoads_widths : ∀ r ∈ unitLoads, ∃ w : Width, r.2 = (w.size, signExtends w) ∧
    ∀ vd rd rt s, exec (r.1 vd rd rt) s = unitStride (r.1 vd rd rt) vecLoad w vd rd rt s := by
  simp only [unitLoads, List.forall_mem_cons]
  exact ⟨⟨.byte, rfl, fun _ _ _ _ => rfl⟩, ⟨.half, rfl, fun _ _ _ _ => rfl⟩, ⟨.word, rfl, fun _ _ _ _ => rfl⟩,
    ⟨.byteU, rfl, fun _ _ _ _ => rfl⟩, ⟨.halfU, rfl, fun _ _ _ _ => rfl⟩, by simp⟩

theorem addressedLoads_widths : ∀ r ∈ addressedLoads, ∃ w : Width, r.2.2 = (w.size, signExtends w) ∧
    ∀ vd rd y s, exec (r.1 vd rd y) s =
      addressed (r.1 vd rd y) vecLoad w vd (r.2.1.addrs s rd y) (r.2.1.waits s y) s := by
  simp only [addressedLoads, List.forall_mem_cons]
  exact ⟨⟨.byte, rfl, fun _ _ _ _ => rfl⟩, ⟨.half, rfl, fun _ _ _ _ => rfl⟩, ⟨.word, rfl, fun _ _ _ _ => rfl⟩,
    ⟨.byteU, rfl, fun _ _ _ _ => rfl⟩, ⟨.halfU, rfl, fun _ _ _ _ => rfl⟩,
    ⟨.byte, rfl, fun _ _ _ _ => rfl⟩, ⟨.half, rfl, fun _ _ _ _ => rfl⟩, ⟨.word, rfl, fun _ _ _ _ => rfl⟩,
    ⟨.byteU, rfl, fun _ _ _ _ => rfl⟩, ⟨.halfU, rfl, fun _ _ _ _ => rfl⟩, by simp⟩

/-! ### The two forms past their checks -/

section
variable {i : Instr} {tr : Transfer} {w : Width} {vd : VReg} {s : State}

theorem unitStride_ok {rd rt : Reg} (hr : vecReady i s) (hne : rd ≠ rt) (ha : (s.reg rd).toNat % w.size = 0) :
    unitStride i tr w vd rd rt s = tr vd (s.unitAddrs rd w.size) noWaits w s.vlr.toNat s fun t =>
      .next (t.setReg rd (s.reg rd + s.reg rt)).advance := by
  rw [unitStride, vecIssue_ok hr, if_neg hne, misaligned_eq_false.mpr ha, if_neg (by simp)]

theorem addressed_ok {addrs : Addrs} {aw : Waits} (hr : vecReady i s) (ha : aligned s addrs w.size) :
    addressed i tr w vd addrs aw s = tr vd addrs aw w s.vlr.toNat s fun t => .next t.advance := by
  rw [addressed, vecIssue_ok hr, alignedElems, firstMisaligned_eq_none ha]

end

/-! ### Loaded elements -/

section
variable {i : Instr} {s t : State} {vd : VReg} {addrs : Addrs} {w : Width}

/-- A transfer of a vector load whose accesses can be made. -/
theorem vecLoad_ok {aw : Waits} {n : Nat} (h : accessible s (vecAccesses .read addrs w.size n aw))
    (k : State → Result) :
    vecLoad vd addrs aw w n s k =
      k ((s.record (vecAccesses .read addrs w.size n aw)).setElems vd n (fun e => w.widen (s.load (addrs e) w.size))
        fun e => (s.pending.length + e.val) :: aw e) :=
  accessing_ok h _

/-- The elements that the transfer writes are the values of the bytes at their addresses (R66). -/
theorem elemsAre_loaded {new : List Access} {d : Waits} (hr : vecReady i s) (hv : vd ∈ i.vregs)
    (ht : t.vregs =
      ((s.record new).setElems vd s.vlr.toNat (fun e => w.widen (s.load (addrs e) w.size)) d).vregs) :
    elemsAre s t vd fun e => loaded s (addrs e) w.size (signExtends w) := by
  intro h0 e
  rw [elem_congr ht, elem_setElems_same _ vd _ _ d e h0 (hr.1.2 vd hv), elem_record,
    ← loaded_eq_widen]

theorem recorded_setElems {new : List Access} (h : recorded s t new) (n : Nat) (f : Elem → Word) (d : Waits) :
    recorded s (t.setElems vd n f d) new := by
  simpa [recorded] using h

end

/-- Settles O45: past its checks each row is a load of whole elements and a write of its base register. -/
theorem unitStrideLoads : Obligations.UnitStrideLoads := by
  intro c n sg hrow vd rd rt s addrs new hr hne ha hacc
  obtain ⟨w, hw, hx⟩ := unitLoads_widths _ hrow
  obtain ⟨rfl, rfl⟩ := Prod.mk.inj hw
  obtain ⟨_, hv⟩ := unitLoads_rows _ hrow
  refine ⟨_, ((hx vd rd rt s).trans (unitStride_ok hr hne ha)).trans (vecLoad_ok hacc _),
    elemsAre_loaded hr (hv vd rd rt s).2 (setReg_vregs ..), fun h0 => ?_, ?_, ?_,
    goesOn_advance s (by simp) (by simp) (by simp)⟩
  · rw [reg_advance, reg_setReg_same _ rd _ h0]
  · exact recorded_setReg_advance (recorded_setElems (recorded_record s new) _ _ _) rd _
  · exact (((frame_refl.recording rfl new).setElems (by simp) _ _ _).setReg (by simp) _).advance

/-- Settles O46: past its checks each row is a load of whole elements. -/
theorem addressedLoads : Obligations.AddressedLoads := by
  intro c f n sg hrow vd rd y s addrs new hr ha hacc
  obtain ⟨w, hw, hx⟩ := addressedLoads_widths _ hrow
  obtain ⟨rfl, rfl⟩ := Prod.mk.inj hw
  obtain ⟨_, hv⟩ := addressedLoads_rows _ hrow
  exact ⟨_, ((hx vd rd y s).trans (addressed_ok hr ha)).trans (vecLoad_ok hacc _),
    elemsAre_loaded hr (hv vd rd y s).2 rfl, recorded_setElems (recorded_record s new) _ _ _,
    ((frame_refl.recording rfl new).setElems (by simp) _ _ _).advance,
    goesOn_advance s (by simp) (by simp) (by simp)⟩

/-! ### Stores to consecutive addresses -/

section
variable (s : State) (rd : Reg) (w : Width)

theorem toNat_unitAddrs (n : Nat) (e : Elem) :
    (s.unitAddrs rd n e).toNat = ((s.reg rd).toNat + n * e.val) % 2 ^ 32 := by
  obtain ⟨-, hunit, -, -⟩ := addressArithmetic s rd 0#5 0#16 n e
  exact hunit

/-- The elements of a vector register span fewer bytes than there are addresses, so that no two of them share
one (R261). -/
theorem unitAddrs_injective : Function.Injective (s.unitAddrs rd w.size) := by
  intro i j h
  have h := congrArg BitVec.toNat h
  rw [toNat_unitAddrs, toNat_unitAddrs] at h
  have hi : i.val < 32 := i.isLt
  have hj : j.val < 32 := j.isLt
  apply Fin.ext
  cases w <;> simp only [Width.size] at h <;> omega

theorem aligned_unitAddrs (h : (s.reg rd).toNat % w.size = 0) : aligned s (s.unitAddrs rd w.size) w.size := by
  intro e _
  rw [toNat_unitAddrs]
  cases w <;> simp only [Width.size] at h ⊢ <;> omega

/-- Where no two elements share an address, each survives at its own (R70). -/
theorem survivor_of_injective {addrs : Addrs} {n : Nat} {e : Elem} (h : Function.Injective addrs)
    (he : e.val < n) : s.survivor addrs n e = e :=
  h (mem_sharers.mp (survivor_mem_sharers s he)).2

end

/-- Settles O47: each row is a store of whole elements, of which every one survives, and a write of its base
register. -/
theorem unitStrideStores : Obligations.UnitStrideStores := by
  intro c n hrow vd rd rt s addrs new hwf hr hne ha hacc
  obtain ⟨w, rfl, hx⟩ := UnitRow.transfers (unitRow_of_unitStores _ hrow)
  have hafter : (fun i => s.waitsOf vd i ++ noWaits i) = s.waitsOf vd := by simp [noWaits]
  refine ⟨_, (hx hr hne ha).trans (vecStore_ok (by rwa [hafter]) _), fun e he k hk => ?_, fun h0 => ?_, ?_, ?_,
    goesOn_advance s (by simp) (by simp) (by simp)⟩
  · rw [byte_advance, byte_setReg, byte_consume]
    refine (byte_storeElems_survivor (s.record _) (s.elem vd) hwf (aligned_unitAddrs s rd w ha) he hk).trans ?_
    rw [survivor_of_injective _ (unitAddrs_injective s rd w) he]
    rfl
  · rw [reg_advance, reg_setReg_same _ rd _ h0]
  · rw [hafter]
    exact recorded_setReg_advance ⟨by simp [new, addrs], by simp [new, addrs, writtenSpans], by simp⟩ rd _
  · refine ((((frame_refl.recording rfl _).storeElems (fun i b hi h => ?_) _).consume (by simp)).setReg
      (by simp) _).advance
    exact ⟨i, hi, h⟩

end Sys2Proof.VectorTransferRules

/-! SUPPORT. The statement of the conditional moves (R357 to R369). -/

namespace Sys2Proof.ConditionalMoveRules

open Sys2Proof.Machine Sys2Proof.Safety Sys2Proof.StateRules

/-- The first `vlr` elements of an existing register after a masked write: one whose write is disabled keeps
its value. -/
theorem elemsAre_of_setElemsWhere {i : Instr} {s t : State} {vw : VReg} {w : Elem → Bool} {f g : Elem → Word}
    {d : Waits} (hr : vecReady i s) (hv : vw ∈ i.vregs)
    (ht : t.vregs = (s.setElemsWhere vw s.vlr.toNat w g d).vregs)
    (hf : ∀ e, (if w e then g e else s.elem vw e) = f e) : elemsAre s t vw f := by
  intro h0 e
  rw [elem_congr ht, elem_setElemsWhere_same s vw _ w g d e h0 (hr.1.2 vw hv), ite_and, hf]

/-- Settles O57: a row of the table runs `vecCmov`, whose condition is the row's and enables the write of an
element. -/
theorem conditionalMoves : Obligations.ConditionalMoves := by
  intro c f p hrow vw x y s hr
  obtain ⟨z, hz, hx, hn⟩ := moving_rows _ hrow
  refine ⟨_, (hx vw x y s).trans (vecIssue_ok hr _), elemsAre_of_setElemsWhere hr (hn vw x y) rfl fun e => ?_,
    (frame_refl.setElemsWhere (by simp) _ _ _ _).advance, goesOn_advance s (by simp) (by simp) (by simp)⟩
  rw [val_formPairs, hz]

end Sys2Proof.ConditionalMoveRules

/-! SUPPORT. The statement of the fixed-point instructions (R381 to R395). -/

namespace Sys2Proof.Safety

open Sys2Proof.Machine

theorem Frame.orVsat {m : Touches} {s t : State} (h : Frame m s t) (hm : m.vsat = true) (n : Nat)
    (p : Elem → Bool) : Frame m s (t.orVsat n p) := by
  refine h.trans ?_
  constructor <;> simp [hm]

end Sys2Proof.Safety

namespace Sys2Proof.FixedPointRules

open Sys2Proof.Machine Sys2Proof.Safety Sys2Proof.Claims Sys2Proof.StateRules Sys2Proof.ControlRules

/-! ### The value before the right shift (R386, R389, R392) -/

theorem toInt_fxShl (c a : Word) :
    (fxShl a (fxSham c) (fxShlnr c)).toInt = (a.toInt * 2 ^ sham c + half c).bmod (2 ^ 32) := by
  rw [fxShl_eq_ofInt, BitVec.toInt_ofInt, half, sham_eq_fxSham]
  rfl

theorem half_bounds (c : Word) : 0 ≤ half c ∧ half c ≤ 2 ^ 30 := by
  have hsham : sham c < 32 := Nat.mod_lt _ (by omega)
  unfold half
  split
  · exact ⟨by positivity, pow_le_pow_right₀ (by omega) (by omega)⟩
  · simp

/-- The product of two 16-bit numbers and its round bit fit 33 bits: the multiplier is exact (R392). -/
theorem toInt_fxProduct_add_fxRound (c a b : Word) :
    (fxProduct a b + fxRound (fxSham c) (fxShlnr c)).toInt =
      a.toInt.bmod (2 ^ 16) * b.toInt.bmod (2 ^ 16) + half c := by
  have hlow : ∀ w : Word, ((w.setWidth 16).signExtend 33).toInt = w.toInt.bmod (2 ^ 16) := toInt_mulInput false
  have hle := @BitVec.toInt_mul_toInt_le 16 (a.setWidth 16) (b.setWidth 16)
  have hge := @BitVec.le_toInt_mul_toInt 16 (a.setWidth 16) (b.setWidth 16)
  rw [← BitVec.toInt_signExtend_of_le (x := a.setWidth 16) (v := 33) (by omega),
    ← BitVec.toInt_signExtend_of_le (x := b.setWidth 16) (v := 33) (by omega), hlow, hlow] at hle hge
  obtain ⟨h0, h1⟩ := half_bounds c
  rw [fxProduct, BitVec.toInt_add, BitVec.toInt_mul, Int.bmod_add_bmod, hlow, hlow, toInt_fxRound]
  exact Int.bmod_eq_of_le (by omega) (by omega)

theorem toInt_fxSum (k : Fx) (c a b : Word) : (fxSum (fxKind k) c a b).toInt = fxExact k c a b := by
  cases k with
  | add => exact (toInt_sum33 ..).trans (congrArg (· + b.toInt) (toInt_fxShl c a))
  | sub => exact (toInt_diff33 ..).trans (congrArg (· - b.toInt) (toInt_fxShl c a))
  | mul => exact toInt_fxProduct_add_fxRound c a b

/-! ### The right shifter (R384) -/

/-- A 33-bit number is its upper 32 bits and its lowest one. -/
theorem exists_eq_concat (q : BitVec 33) : ∃ x : BitVec 32, q = x.concat (q.getLsbD 0) :=
  ⟨q.extractLsb' 1 32, BitVec.concat_extractLsb'_getLsb.symm⟩

theorem setBit0_concat (x : BitVec 32) (d b : Bool) : setBit0 (x.concat d) b = x.concat b := by
  have hone : 1#33 = (0#32).concat true := rfl
  have hmask : ~~~1#33 = (BitVec.allOnes 32).concat false := rfl
  cases b
  · rw [setBit0, if_neg (by simp), hmask, BitVec.concat_and_concat, BitVec.and_allOnes, Bool.and_false]
  · rw [setBit0, if_pos rfl, hone, BitVec.concat_or_concat, BitVec.or_zero, Bool.or_true]

theorem setBit0_getLsbD_zero (q : BitVec 33) : setBit0 q (q.getLsbD 0) = q := by
  obtain ⟨x, hx⟩ := exists_eq_concat q
  calc setBit0 q (q.getLsbD 0)
    _ = setBit0 (x.concat (q.getLsbD 0)) (q.getLsbD 0) := by rw [← hx]
    _ = x.concat (q.getLsbD 0) := setBit0_concat ..
    _ = q := hx.symm

theorem toInt_setBit0 (q : BitVec 33) (b : Bool) : (setBit0 q b).toInt = q.toInt - q.toInt % 2 + b.toInt := by
  obtain ⟨x, hx⟩ := exists_eq_concat q
  rw [hx, setBit0_concat, BitVec.toInt_concat, BitVec.toInt_concat, if_neg (by omega)]
  cases q.getLsbD 0 <;> simp

/-- The bits that the shift discards are the remainder of the division by its power of two. -/
theorem fxSticky_iff (q : BitVec 33) {n : Nat} (hn : n ≤ 33) : fxSticky q n = true ↔ q.toInt % 2 ^ n ≠ 0 := by
  have hlt := q.isLt
  have hq : q.toInt % 2 ^ 33 = (q.toNat : Int) := by
    rw [BitVec.toInt_eq_toNat_cond]
    split <;> omega
  have hmod : q.toInt % 2 ^ n = ((q.toNat % 2 ^ n : Nat) : Int) := by
    rw [← Int.emod_emod_of_dvd q.toInt (pow_dvd_pow 2 hn), hq]
    push_cast
    rfl
  rw [fxSticky, decide_eq_true_iff, hmod, Int.natCast_ne_zero]

section
variable (q : BitVec 33) {n : Nat}

theorem toInt_shifted : (q.sshiftRight n).toInt = q.toInt / 2 ^ n := by
  rw [BitVec.toInt_sshiftRight, Int.shiftRight_eq_div_pow]
  push_cast
  rfl

/-- With `shrnr` set the result is the quotient, rounded down. -/
theorem toInt_fxShr_plain (st : Bool) : (fxShr q n true st).toInt = q.toInt / 2 ^ n := by
  rw [← toInt_shifted]
  simp [fxShr]

/-- With `shrst` set a lost bit makes the result odd. -/
theorem toInt_fxShr_jammed (hn : n ≤ 33) :
    (fxShr q n false true).toInt =
      if q.toInt % 2 ^ n ≠ 0 then q.toInt / 2 ^ n - q.toInt / 2 ^ n % 2 + 1 else q.toInt / 2 ^ n := by
  have hjam : fxShr q n false true = setBit0 (q.sshiftRight n) ((q.sshiftRight n).getLsbD 0 || fxSticky q n) := rfl
  rw [hjam, ← toInt_shifted]
  by_cases hlost : q.toInt % 2 ^ n ≠ 0
  · rw [if_pos hlost, (fxSticky_iff q hn).mpr hlost, Bool.or_true, toInt_setBit0]
    rfl
  · rw [if_neg hlost, Bool.eq_false_iff.mpr (mt (fxSticky_iff q hn).mp hlost), Bool.or_false, setBit0_getLsbD_zero]

/-- With both clear a quotient without remainder, which the round bit made of a tie, is made even. -/
theorem toInt_fxShr_even (hn : n ≤ 33) :
    (fxShr q n false false).toInt =
      if n ≠ 0 ∧ ¬q.toInt % 2 ^ n ≠ 0 then q.toInt / 2 ^ n - q.toInt / 2 ^ n % 2 else q.toInt / 2 ^ n := by
  have heven : fxShr q n false false =
      if n ≠ 0 ∧ ¬q.toInt % 2 ^ n ≠ 0 then setBit0 (q.sshiftRight n) false else q.sshiftRight n := by
    simp [fxShr, ← fxSticky_iff q hn]
  rw [heven, ← toInt_shifted]
  split
  · rw [toInt_setBit0]
    exact add_zero _
  · rfl

end

theorem toInt_fxShr (c : Word) (q : BitVec 33) :
    (fxShr q (fxSham c) (fxShrnr c) (fxShrst c)).toInt = fxRounded c q.toInt := by
  have hsham : fxSham c < 32 := (c.extractLsb' 0 5).isLt
  rw [fxRounded, sham_eq_fxSham, fxShrnr, fxShrst]
  cases c.getLsbD 10 with
  | true => exact toInt_fxShr_plain q _
  | false =>
    cases c.getLsbD 11 with
    | true => exact toInt_fxShr_jammed q (by omega)
    | false => exact toInt_fxShr_even q (by omega)

/-! ### The clipper (R385) -/

theorem clipWidth_fxClipam (c : Word) : clipWidth (fxClipam c) = fxWidth c := by
  have hclip : (fxClipam c).toNat = c.toNat / 128 % 4 := by
    rw [fxClipam, BitVec.extractLsb'_toNat, Nat.shiftRight_eq_div_pow]
  rw [fxWidth, ← hclip]
  cases fxClipam c with
  | ofFin g => fin_cases g <;> rfl

/-- The bounds of the clipper are in order, so that it does not matter which is applied first. -/
theorem fxClip_eq_clip (q : BitVec 33) (c : Word) :
    fxClip q (fxClipam c) =
      (BitVec.ofInt 32 (clip (fxWidth c) q.toInt), decide (clip (fxWidth c) q.toInt ≠ q.toInt)) := by
  have hpos : (0 : Int) < 2 ^ (fxWidth c - 1) := by positivity
  have hclip : min (max q.toInt (-2 ^ (fxWidth c - 1))) (2 ^ (fxWidth c - 1) - 1) = clip (fxWidth c) q.toInt := by
    rw [clip, max_comm]
    exact sup_inf_assoc_of_le _ (by omega)
  rw [fxClip, clipWidth_fxClipam, hclip]

/-! ### One element, and the whole instruction (R382) -/

theorem fxElement_eq (k : Fx) (c : Word) (ab : Word × Word) :
    fxElement (fxKind k) c ab =
      let v := fxRounded c (fxExact k c ab.1 ab.2)
      (BitVec.ofInt 32 (clip (fxWidth c) v), decide (clip (fxWidth c) v ≠ v)) := by
  rw [fxElement, fxClip_eq_clip, toInt_fxShr, toInt_fxSum]

/-- A valid word passes both checks of the configuration word (R381, R385). -/
theorem fxArch_valid {k : FxKind} {vw : VReg} {ab : Pairs} {c : Word} {n : Nat} {s : State} (h : fxValid c) :
    fxArch k vw ab c n s =
      .next ((s.setElems vw n (fun e => (fxElement k c (ab.val e)).1) ab.waits).orVsat n
        fun e => (fxElement k c (ab.val e)).2).advance := by
  obtain ⟨hhigh, hmid, hclip⟩ := h
  rw [fxArch, if_neg (not_not.mpr ((unusedBits_eq_zero_iff c).mpr ⟨hhigh, hmid⟩)),
    if_neg (mt (fxClipam_reserved_iff c).mp hclip)]

/-- Settles O58: by `fxArch_valid` the instruction completes, and by `fxElement_eq` its elements and flags are those
of the item. -/
theorem fixedPointResults : Obligations.FixedPointResults := by
  intro c f k hrow vw x y rd s hr h0 hvalid
  obtain ⟨-, hn⟩ := fixed_rows _ hrow vw x y rd s
  refine ⟨_, (exec_fixed_arch hrow hr h0).trans (fxArch_valid hvalid),
    ⟨elemsAre_of_setElems hr hn rfl fun e => ?_, fun e => ?_⟩,
    ((frame_refl.setElems (by simp) _ _ _).orVsat rfl _ _).advance, goesOn_advance s (by simp) (by simp) (by simp)⟩
  · rw [val_formPairs, fxElement_eq]
  · simp [BitVec.getLsbD_eq_getElem, getElem_sticky, fxElement_eq]

end Sys2Proof.FixedPointRules

/-! SUPPORT. The statements of the exception family: every exception is terminal (R439 to R441, R443), the vector
operation exception (R434), and the bus errors of the vector loads and stores (R437, R438). -/

namespace Sys2Proof.ExceptionRules

open Sys2Proof.Machine Sys2Proof.Safety Sys2Proof.Claims Sys2Proof.Scope Sys2Proof.StateRules Sys2Proof.MemoryRules

/-! ### The recorded outcome (R439 to R441) -/

/-- A step that ends with an outcome recorded is the step that took the exception: no other effect of an
instruction records one, and none runs on a machine that holds one. -/
theorem eq_withTrap_of_trap {s t : State} (h : step s = .next t) (ht : t.trap ≠ none) : ∃ e, t = withTrap s e := by
  obtain ⟨hs, hshape⟩ := stepShape_step h
  cases hshape with
  | trap e => exact ⟨e, rfl⟩
  | advance hk | take _ hk | pass _ hk | nullify _ hk => exact absurd (hk.trap.trans hs) ht

theorem step_of_trapped {s : State} {o : TrapOutcome} (h : s.trap = some o) : step s = .fault (.trapped o) := by
  simp [step, fetchOrEnd, h]

/-- Settles O11: by `eq_withTrap_of_trap` and `step_of_trapped`. -/
theorem exceptionsAreTerminal : Obligations.ExceptionsAreTerminal := by
  refine ⟨fun s t h ht => ?_, fun s o => step_of_trapped⟩
  obtain ⟨e, rfl⟩ := eq_withTrap_of_trap h ht
  refine ⟨e, ?_⟩
  unfold withTrap
  cases s.slot <;> rfl

/-! ### The vector operation exception (R434) -/

/-- The outcome `r` is that of the preamble of `i`, followed by some meaning given the vector length (R15). -/
def AfterPreamble (i : Instr) (s : State) (r : Result) : Prop := ∃ k, r = vecIssue i s k

section
variable {i : Instr} {s : State} {vw : VReg} {ab : Pairs}

theorem afterPreamble_vecInt (f : Word → Word → Word) : AfterPreamble i s (vecInt i vw ab f s) := ⟨_, rfl⟩

theorem afterPreamble_vecIntOvf (f : Word → Word → BitVec 33) : AfterPreamble i s (vecIntOvf i vw ab f s) :=
  ⟨_, rfl⟩

theorem afterPreamble_vecSet (p : Word → Word → Bool) : AfterPreamble i s (vecSet i vw ab p s) := ⟨_, rfl⟩

theorem afterPreamble_vecFlag (p : Word → Word → Bool) : AfterPreamble i s (vecFlag i ab p s) := ⟨_, rfl⟩

theorem afterPreamble_vecCmov (z : ZeroCond) : AfterPreamble i s (vecCmov i z vw ab s) := ⟨_, rfl⟩

theorem afterPreamble_fixedPoint (k : FxKind) (rd : Reg) : AfterPreamble i s (fixedPoint i k vw ab rd s) := ⟨_, rfl⟩

theorem afterPreamble_unitStride (tr : Transfer) (w : Width) (rd rt : Reg) :
    AfterPreamble i s (unitStride i tr w vw rd rt s) := ⟨_, rfl⟩

theorem afterPreamble_addressed (tr : Transfer) (w : Width) (addrs : Addrs) (aw : Waits) :
    AfterPreamble i s (addressed i tr w vw addrs aw s) := ⟨_, rfl⟩

/-- Every instruction that reads vlr begins with the preamble. -/
theorem afterPreamble_of_readsVlr (h : readsVlr i) : AfterPreamble i s (exec i s) := by
  unfold exec
  cases i with
  | vextV => exact ⟨_, rfl⟩
  | lbaiV | lhaiV | lwaiV | lbuaiV | lhuaiV | sbaiV | shaiV | swaiV => exact afterPreamble_unitStride _ _ _ _
  | lbxV | lhxV | lwxV | lbuxV | lhuxV | lbstV | lhstV | lwstV | lbustV | lhustV
  | sbxV | shxV | swxV | sbstV | shstV | swstV => exact afterPreamble_addressed _ _ _ _
  | andVv | orVv | xorVv | norVv | adduVv | subuVv | sllvVv | srlvVv | sravVv
  | andVs | orVs | xorVs | norVs | adduVs | subuVs | sllvVs | srlvVs | sravVs
  | subuSv | sllvSv | srlvSv | sravSv => exact afterPreamble_vecInt _
  | addVv | subVv | addVs | subVs | subSv => exact afterPreamble_vecIntOvf _
  | sltVv | sltuVv | seqVv | sltVs | sltuVs | seqVs | sltSv | sltuSv => exact afterPreamble_vecSet _
  | fltVv | fltVs | fltSv | fltuVv | fltuVs | fltuSv | feqVv | feqVs => exact afterPreamble_vecFlag _
  | cmvnezVv | cmvgezVv | cmvlezVv | cmveqzVv | cmvltzVv | cmvgtzVv
  | cmvnezVs | cmvgezVs | cmvlezVs | cmveqzVs | cmvltzVs | cmvgtzVs => exact afterPreamble_vecCmov _
  | fxaddVv | fxsubVv | fxmulVv | fxaddVs | fxsubVs | fxmulVs | fxaddSv | fxsubSv | fxmulSv =>
    exact afterPreamble_fixedPoint _ _
  | _ => exact absurd h (by unfold readsVlr encode; simp)

end

theorem vecIssue_tooLong {i : Instr} {s : State} (hu : vuUsable i s) (h : 32 < s.vlr.toNat) (k : Nat → Result) :
    vecIssue i s k = raise .vectorOperation s := by
  rw [vecIssue, vuIssue_ok hu, if_pos h]

section
variable {vd vt : VReg} {rt rd : Reg} {s : State}

/-- The range check of VEXT.V takes the low 8 bits of the sum with the whole register (R251). -/
theorem exec_vextV_outside (hr : vecReady (.vextV vd vt rd) s) (h : 32 < (s.vlr.toNat + (s.reg rd).toNat) % 256) :
    exec (.vextV vd vt rd) s = raise .vectorOperation s := by
  change execVextV vd vt rd s = _
  rw [execVextV, vecIssue_ok hr, index_eq, Nat.add_mod_mod, if_pos h]

theorem exec_vinsS_outside (hu : vuUsable (.vinsS rt vd rd) s) (h : 32 ≤ (s.reg rd).toNat % 256) :
    exec (.vinsS rt vd rd) s = raise .vectorOperation s := by
  change execVinsS rt vd rd s = _
  rw [execVinsS, vuIssue_ok hu, index_eq, if_pos h]

theorem exec_vextS_outside (hu : vuUsable (.vextS rt vd rd) s) (h : 32 ≤ (s.reg rd).toNat % 256) :
    exec (.vextS rt vd rd) s = raise .vectorOperation s := by
  change execVextS rt vd rd s = _
  rw [execVextS, vuIssue_ok hu, index_eq, if_pos h]

end

/-- Settles O14: the check of vlr comes first in the instructions that read it, the check of the index next. -/
theorem vectorOperationExceptions : Obligations.VectorOperationExceptions := by
  refine ⟨fun i s hu hv h => ?_, fun vd vt rd s hr h => traps_of_raise (exec_vextV_outside hr h),
    fun rt vd rd s h => ⟨fun hu => traps_of_raise (exec_vinsS_outside hu h),
      fun hu => traps_of_raise (exec_vextS_outside hu h)⟩⟩
  obtain ⟨k, hk⟩ := afterPreamble_of_readsVlr (s := s) hv
  exact traps_of_raise (hk.trans (vecIssue_tooLong hu h k))

/-! ### Bus errors of the vector loads and stores (R437, R438) -/

/-- Element `e` is the lowest of the first vlr whose bytes are not all backed, and `b` its first such byte. -/
structure UnbackedFirstAt (s : State) (addrs : Addrs) (size : Nat) (e : Elem) (b : Word) : Prop where
  lt_vlr : e.val < s.vlr.toNat
  unbacked : Params.firstUnbacked s.params (addrs e) size = some b
  before : ∀ j : Elem, j.val < e.val → Params.firstUnbacked s.params (addrs j) size = none

/-- The bus check goes through the element accesses in their order (R438). -/
theorem accessing_vecAccesses_unbacked {s : State} {addrs : Addrs} {size : Nat} {e : Elem} {b : Word}
    (h : UnbackedFirstAt s addrs size e b) (kind : AccessKind) (after : Waits) (k : State → Result) :
    s.accessing (vecAccesses kind addrs size s.vlr.toNat after) k = raise (.busError b) s := by
  obtain ⟨post, hsplit⟩ := elems_split h.lt_vlr
  have hbefore : (elems e.val).findSome? (fun i => Params.firstUnbacked s.params (addrs i) size) = none :=
    List.findSome?_eq_none_iff.mpr fun i hi => h.before i (mem_elems.mp hi)
  refine accessing_unbacked k ?_
  rw [vecAccesses, hsplit, List.findSome?_map]
  simp [Function.comp_def, List.findSome?_append, hbefore, h.unbacked]

/-- The transfer makes the bus check before anything else (R437). -/
def ChecksBacking (tr : Transfer) : Prop :=
  ∀ {s : State} {addrs : Addrs} {w : Width} {e : Elem} {b : Word}, UnbackedFirstAt s addrs w.size e b →
    ∀ vd aw k, tr vd addrs aw w s.vlr.toNat s k = raise (.busError b) s

theorem checksBacking_vecLoad : ChecksBacking vecLoad := fun h _ _ _ => accessing_vecAccesses_unbacked h _ _ _

theorem checksBacking_vecStore : ChecksBacking vecStore := fun h _ _ _ => accessing_vecAccesses_unbacked h _ _ _

section
variable {tr : Transfer} {c : Form3} {f : AddrForm} {n : Nat} {vd : VReg} {rd rt : Reg} {y : BitVec 5} {s : State}
  {e : Elem} {b : Word}

theorem unitRow_unbacked (h : UnitRow tr c n) (htr : ChecksBacking tr) (hr : vecReady (c vd rd rt) s)
    (hne : rd ≠ rt) (ha : (s.reg rd).toNat % n = 0) (hb : UnbackedFirstAt s (s.unitAddrs rd n) n e b) :
    traps (c vd rd rt) s (.busError b) := by
  obtain ⟨w, rfl, hx⟩ := h.transfers
  exact traps_of_raise ((hx hr hne ha).trans (htr hb _ _ _))

theorem addressedRow_unbacked (h : AddressedRow tr c f n) (htr : ChecksBacking tr) (hr : vecReady (c vd rd y) s)
    (ha : aligned s (f.addrs s rd y) n) (hb : UnbackedFirstAt s (f.addrs s rd y) n e b) :
    traps (c vd rd y) s (.busError b) := by
  obtain ⟨w, rfl, hx⟩ := h.transfers
  exact traps_of_raise ((hx hr ha).trans (htr hb _ _ _))

end

/-- Settles O51: past its alignment checks each row is its transfer, which makes the bus check. -/
theorem vectorBusErrors : Obligations.VectorBusErrors := by
  refine ⟨fun c n hrow vd rd rt s e b hr hne ha he hb hlt => ?unit,
    fun c f n hrow vd rd y s e b hr ha he hb hlt => ?addressed⟩
  case unit =>
    rcases hrow with hrow | hrow
    · obtain ⟨r, hmem, ⟨⟩⟩ := List.mem_map.mp hrow
      exact unitRow_unbacked (unitRow_of_unitLoads r hmem) checksBacking_vecLoad hr hne ha ⟨he, hb, hlt⟩
    · exact unitRow_unbacked (unitRow_of_unitStores _ hrow) checksBacking_vecStore hr hne ha ⟨he, hb, hlt⟩
  case addressed =>
    rcases hrow with hrow | hrow
    · obtain ⟨r, hmem, ⟨⟩⟩ := List.mem_map.mp hrow
      exact addressedRow_unbacked (addressedRow_of_addressedLoads r hmem) checksBacking_vecLoad hr ha ⟨he, hb, hlt⟩
    · exact addressedRow_unbacked (addressedRow_of_addressedStores _ hrow) checksBacking_vecStore hr ha ⟨he, hb, hlt⟩

end Sys2Proof.ExceptionRules

/-! SUPPORT. The statements of the T0 fixed-point pipelines (file 48, appendix A): what they give for any T0-only
fields (R401 to R417), and that they are the architecture's when those fields are zero (R418). -/

namespace Sys2Proof.T0PipelineRules

open Sys2Proof.Machine Sys2Proof.Safety Sys2Proof.Claims Sys2Proof.StateRules Sys2Proof.ControlRules
  Sys2Proof.ConditionalMoveRules Sys2Proof.FixedPointRules

/-! ### The right shifter as numbers (R406, R415) -/

section
variable (q : BitVec 33)

/-- Bits shifted out that are jammed into bit 0 make the number odd. -/
theorem toInt_setBit0_or (st : Bool) :
    (setBit0 q (q.getLsbD 0 || st)).toInt = if st then q.toInt - q.toInt % 2 + 1 else q.toInt := by
  cases st
  · rw [Bool.or_false, setBit0_getLsbD_zero, if_neg (by simp)]
  · rw [Bool.or_true, toInt_setBit0, if_pos rfl]
    rfl

/-- Bit 0 is cleared unless bits were shifted out. -/
theorem toInt_setBit0_and (st : Bool) :
    (setBit0 q (q.getLsbD 0 && st)).toInt = if st then q.toInt else q.toInt - q.toInt % 2 := by
  cases st
  · rw [Bool.and_false, toInt_setBit0, if_neg (by simp)]
    exact add_zero _
  · rw [Bool.and_true, setBit0_getLsbD_zero, if_pos rfl]

theorem toInt_ushiftRight_eq (n : Nat) : (q >>> n).toInt = (q.toInt % 2 ^ 33 / 2 ^ n).bmod (2 ^ 33) := by
  have hq : q.toInt % 2 ^ 33 = (q.toNat : Int) := by
    have hlt := q.isLt
    rw [BitVec.toInt_eq_toNat_cond]
    split <;> omega
  rw [BitVec.toInt_eq_toNat_bmod, BitVec.toNat_ushiftRight, Nat.shiftRight_eq_div_pow, hq]
  push_cast
  rfl

/-- The shifted value, logically or arithmetically. -/
theorem toInt_shiftedBy (logical : Bool) (n : Nat) :
    (if logical then q >>> n else q.sshiftRight n).toInt =
      if logical then (q.toInt % 2 ^ 33 / 2 ^ n).bmod (2 ^ 33) else q.toInt / 2 ^ n := by
  cases logical
  · exact toInt_shifted q
  · exact toInt_ushiftRight_eq q n

end

/-- Extension to 33 bits keeps the low five bits. -/
theorem extractLsb'_extend33 (u : Bool) (w : Word) : (extend33 u w).extractLsb' 0 5 = w.extractLsb' 0 5 := by
  ext i hi
  rw [BitVec.getElem_extractLsb', BitVec.getElem_extractLsb', Nat.zero_add]
  cases u
  · rw [extend33, if_neg (by simp), BitVec.getLsbD_signExtend, if_pos (by omega), decide_eq_true (by omega),
      Bool.true_and]
  · rw [extend33, if_pos rfl, BitVec.getLsbD_setWidth, decide_eq_true (by omega), Bool.true_and]

/-- The right shift amount is taken from the logic unit, from shram, or from the left shift amount (R406). -/
theorem t0ShrAmount_eq (l : T0Layout) (c lu : Word) :
    t0ShrAmount (t0Fields l c) (t0AddB (t0Fields l c) lu) =
      if flag c l.shrv then low5 lu else if flag c l.sepsham then field c l.shram else sham c := by
  rw [t0ShrAmount, t0AddB, extractLsb'_extend33, low5_eq_shiftCount, sham_eq_fxSham, ← toNat_gather]
  rfl

theorem t0ShrAmount_lt (l : T0Layout) (c lu : Word) :
    t0ShrAmount (t0Fields l c) (t0AddB (t0Fields l c) lu) < 32 := by
  unfold t0ShrAmount
  split
  · exact BitVec.isLt _
  · split
    · exact (gather c l.shram).isLt
    · exact (c.extractLsb' 0 5).isLt

/-- The rounding of a shifted number `q` (R406): plain, jammed, or corrected to even when `corrects`; some
bit was shifted out when `lost`. -/
def rounded (plain jams : Bool) (corrects lost : Prop) [Decidable corrects] [Decidable lost] (q : Int) : Int :=
  if plain then q
  else if jams then (if lost then q - q % 2 + 1 else q)
  else if corrects ∧ ¬lost then q - q % 2 else q

theorem rounded_congr {plain jams : Bool} {p p' lost lost' : Prop} [Decidable p] [Decidable p'] [Decidable lost]
    [Decidable lost'] (hp : p ↔ p') (hlost : lost ↔ lost') (q : Int) :
    rounded plain jams p lost q = rounded plain jams p' lost' q := by
  simp only [rounded, hp, hlost]

/-- Rounding in the right shifter writes bit 0 only. -/
theorem toInt_setBit0_rounded (r : BitVec 33) (plain jams corrects lost : Bool) :
    (if !plain && jams then setBit0 r (r.getLsbD 0 || lost)
      else if !plain && corrects then setBit0 r (r.getLsbD 0 && lost) else r).toInt =
      rounded plain jams (corrects = true) (lost = true) r.toInt := by
  cases plain with
  | true => rfl
  | false =>
    cases jams with
    | true => exact toInt_setBit0_or r lost
    | false =>
      cases corrects with
      | true =>
        refine (toInt_setBit0_and r lost).trans ?_
        cases lost <;> rfl
      | false => rfl

/-- SHROUT as a number, for a shift by fewer than 34 places. -/
theorem toInt_t0Shr_eq_rounded (f : T0Fields) (v addb : BitVec 33) {n : Nat} (hamt : t0ShrAmount f addb = n)
    (hn : n ≤ 33) :
    (t0Shr f v addb).toInt =
      rounded f.shrnr f.shrst (f.shrv = true ∨ n ≠ 0) (v.toInt % 2 ^ n ≠ 0)
        (if f.shrl then (v.toInt % 2 ^ 33 / 2 ^ n).bmod (2 ^ 33) else v.toInt / 2 ^ n) := by
  have hcorrects : (!(!f.shrv && decide (n = 0))) = true ↔ f.shrv = true ∨ n ≠ 0 := by simp
  rw [t0Shr, hamt, toInt_setBit0_rounded, toInt_shiftedBy]
  exact rounded_congr hcorrects (fxSticky_iff v hn) _

theorem toInt_t0Shr (l : T0Layout) (c lu : Word) (v : BitVec 33) :
    (t0Shr (t0Fields l c) v (t0AddB (t0Fields l c) lu)).toInt = shrOut l c v.toInt lu := by
  have hlt := t0ShrAmount_lt l c lu
  rw [t0ShrAmount_eq] at hlt
  exact toInt_t0Shr_eq_rounded _ v _ (t0ShrAmount_eq l c lu) (by omega)

/-! ### The clipper and the alternate functions (R407 to R409) -/

theorem toNat_fxClipam (c : Word) : (fxClipam c).toNat = c.toNat / 128 % 4 := by
  rw [fxClipam, BitVec.extractLsb'_toNat, Nat.shiftRight_eq_div_pow]

section
variable (v : BitVec 33)

theorem overflows_eq_decide : overflows v = decide (¬fits v.toInt) := by
  rw [Bool.eq_iff_iff, overflows_iff, decide_eq_true_iff]

theorem getLsbD_top_eq_decide : v.getLsbD 32 = decide (v.toInt < 0) := by
  rw [← BitVec.msb_eq_toInt, BitVec.msb_eq_getLsbD_last]

theorem eq_zero_iff_toInt : v = 0#33 ↔ v.toInt = 0 := by
  rw [← BitVec.toInt_inj]
  rfl

end

/-- Table 12 (R409). -/
theorem t0NoClip_eq {l : T0Layout} {c : Word} (h : flag c l.noclip = true) (v w : BitVec 33) :
    t0NoClip (fxClipam c) w v = clipOut l c v.toInt w.toInt := by
  rw [clipOut, if_pos h, ← toNat_fxClipam]
  simp only [truth_eq_boolWord, ← getLsbD_top_eq_decide, ← eq_zero_iff_toInt, ← overflows_eq_decide,
    ← setWidth_eq_ofInt]
  cases fxClipam c with
  | ofFin g => fin_cases g <;> rfl

/-- CLIPOUT and FLAG, from the clipper or from the alternate functions. -/
theorem t0Clip_eq_clipOut (l : T0Layout) (c : Word) (v w : BitVec 33) :
    (if flag c l.noclip then t0NoClip (fxClipam c) w v else fxClip w (fxClipam c)) = clipOut l c v.toInt w.toInt := by
  by_cases h : flag c l.noclip = true
  · rw [if_pos h, t0NoClip_eq h]
  · rw [if_neg h, fxClip_eq_clip, clipOut, if_neg h]

/-! ### One element (R402 to R416) -/

theorem toInt_clipIn (l : T0Layout) (c lu : Word) (v : BitVec 33) :
    (if flag c l.lures then t0AddB (t0Fields l c) lu
      else t0Shr (t0Fields l c) v (t0AddB (t0Fields l c) lu)).toInt =
      if flag c l.lures then number (flag c l.bu) lu else shrOut l c v.toInt lu := by
  cases flag c l.lures
  · exact toInt_t0Shr l c lu v
  · exact toInt_extend33 _ _

/-- CLIPOUT and FLAG of an element; its write enable is `write_t0Element`. -/
theorem clipout_flag_t0Element (k : Fx) (l : T0Layout) (c : Word) (ab : Word × Word) :
    ((t0Element (fxKind k) (t0Fields l c) ab).clipout, (t0Element (fxKind k) (t0Fields l c) ab).flag) =
      (t0Elem k l c ab).1 := by
  have hlu : logicUnit (t0Fields l c).lufunc ab.1 ab.2 = luOut l c ab.1 ab.2 := logicUnit_eq_luOut l c ab.1 ab.2
  rw [t0Element, hlu, t0Elem, ← toInt_t0AddOut, addB, ← toInt_clipIn]
  exact t0Clip_eq_clipOut l c _ _

/-! ### The checks of the configuration word (R401, R417) -/

theorem getLsbD_fxUnusedMask (p : Fin 32) :
    fxUnusedMask.getLsbD p.val = true ↔ 12 ≤ p.val ∨ p.val = 5 ∨ p.val = 6 := by
  revert p
  decide

theorem t0Leftover_iff (l : T0Layout) (c : Word) : t0Leftover l c = true ↔ strayBit l c := by
  simp only [t0Leftover, strayBit, List.any_eq_true, List.mem_finRange, true_and, Bool.and_eq_true, Bool.not_eq_true',
    List.contains_eq_mem, decide_eq_false_iff_not, getLsbD_fxUnusedMask, and_assoc]

theorem t0MulForbidden_iff (l : T0Layout) (c : Word) : t0MulForbidden (t0Fields l c) = true ↔ mulStops l c := by
  simp [t0MulForbidden, mulStops, t0Fields, flag, or_assoc]

theorem fxKind_eq_mul {k : Fx} : fxKind k = .mul ↔ k = .mul := by
  cases k <;> simp [fxKind]

/-- With T0's extensions an instruction of the table runs the pipelines. -/
theorem exec_fixed_t0 {c : BitVec 5 → BitVec 5 → BitVec 5 → BitVec 5 → Instr} {f : Form} {k : Fx} {vw : VReg}
    {x y : BitVec 5} {rd : Reg} {s : State} {l : T0Layout} (hrow : (c, f, k) ∈ fixed) (hr : vecReady (c vw x y rd) s)
    (hl : s.params.t0 = some l) :
    exec (c vw x y rd) s = fxT0 l (fxKind k) vw (formPairs f s x y) (s.reg rd) s.vlr.toNat s := by
  rw [(fixed_rows _ hrow vw x y rd s).1, fixedPoint, vecIssue_ok hr, hl]

section
variable {l : T0Layout} {k : Fx} {vw : VReg} {ab : Pairs} {c : Word} {n : Nat} {s : State}

theorem fxT0_strayBit (h : strayBit l c) : fxT0 l (fxKind k) vw ab c n s = .refused .configUnusedBits := by
  rw [fxT0, if_pos ((t0Leftover_iff l c).mpr h)]

theorem fxT0_mulStops (h : ¬strayBit l c) (hk : k = .mul) (hm : mulStops l c) :
    fxT0 l (fxKind k) vw ab c n s = .refused .t0FieldMustBeZero := by
  rw [fxT0, if_neg (mt (t0Leftover_iff l c).mp h), if_pos ⟨fxKind_eq_mul.mpr hk, (t0MulForbidden_iff l c).mpr hm⟩]

/-- A word that passes both checks runs the pipeline on every element. FLAG is among the bits `p` ORed into vsat
where the write is enabled, and no other bit is (R411). -/
theorem fxT0_ok (h : ¬strayBit l c) (hm : k = .mul → ¬mulStops l c) :
    ∃ u p, fxT0 l (fxKind k) vw ab c n s =
        .next (((s.setElemsWhere vw n (fun e => (t0Elem k l c (ab.val e)).2) (fun e => (t0Elem k l c (ab.val e)).1.1)
          (ab.waitsOn u)).orVsat n p).consume n).advance ∧
      ∀ e, ((t0Elem k l c (ab.val e)).1.2 = false → p e = false) ∧
        ((t0Elem k l c (ab.val e)).2 = true → (t0Elem k l c (ab.val e)).1.2 = true → p e = true) := by
  have hmul : ¬(fxKind k = .mul ∧ t0MulForbidden (t0Fields l c) = true) := fun ⟨hk, hf⟩ =>
    hm (fxKind_eq_mul.mp hk) ((t0MulForbidden_iff l c).mp hf)
  simp only [← write_t0Element, ← clipout_flag_t0Element]
  refine ⟨_, _, (if_neg (mt (t0Leftover_iff l c).mp h)).trans (if_neg hmul),
    fun e => ⟨fun hf => ?_, fun hw hf => ?_⟩⟩
  · simp [t0FlagBit, hf]
  · simp [t0FlagBit, hf, hw]

end

/-- Bits ORed into a flag register under a write enable (R411). -/
theorem getLsbD_sticky_of_flag (old : Word) (n : Nat) {p : Elem → Bool} {e : Elem} {flag write : Bool}
    (hp : (flag = false → p e = false) ∧ (write = true → flag = true → p e = true)) :
    (n ≤ e.val ∨ flag = false → (sticky old n p).getLsbD e.val = old.getLsbD e.val) ∧
      (e.val < n → write = true → flag = true → (sticky old n p).getLsbD e.val = true) ∧
      (old.getLsbD e.val = true → (sticky old n p).getLsbD e.val = true) := by
  have hbit : (sticky old n p).getLsbD e.val = (old.getLsbD e.val || (decide (e.val < n) && p e)) := by
    simp [BitVec.getLsbD_eq_getElem, getElem_sticky]
  rw [hbit]
  refine ⟨?_, fun hlt hw hf => ?_, fun hold => ?_⟩
  · rintro (hge | hf)
    · simp [Nat.not_lt.mpr hge]
    · simp [hp.1 hf]
  · simp [hlt, hp.2 hw hf]
  · simp [hold]

/-- Settles O60: by `fxT0_ok` the instruction completes, its elements and flags being those of the item. -/
theorem t0PipelineResults : Obligations.T0PipelineResults := by
  intro c f k hrow vw x y rd s l hr hl
  obtain ⟨-, hn⟩ := fixed_rows _ hrow vw x y rd s
  have hx := exec_fixed_t0 hrow hr hl
  refine ⟨fun hs hm => ?_, fun hs => hx.trans (fxT0_strayBit hs), fun hs hk hm => hx.trans (fxT0_mulStops hs hk hm)⟩
  obtain ⟨u, p, hok, hp⟩ := fxT0_ok (vw := vw) (ab := formPairs f s x y) (n := s.vlr.toNat) (s := s) hs hm
  rw [val_formPairs] at hok hp
  refine ⟨_, hx.trans hok, ⟨elemsAre_of_setElemsWhere hr hn rfl fun e => rfl, fun e => ?_⟩,
    (((frame_refl.setElemsWhere (by simp) _ _ _ _).orVsat rfl _ _).consume fun _ => rfl).advance,
    goesOn_advance s (by simp) (by simp) (by simp)⟩
  rw [advance_vsat, consume_vsat, orVsat_vsat, setElemsWhere_vsat]
  exact getLsbD_sticky_of_flag s.vsat s.vlr.toNat (hp e)

/-! ### A word with the T0-only fields zero (R418) -/

/-- The T0-only fields of a configuration word are zero (R418). -/
structure T0OnlyZero (l : T0Layout) (c : Word) : Prop where
  lufunc : field c l.lufunc = 0
  shram : field c l.shram = 0
  wcond : field c l.wcond = 0
  shlza : flag c l.shlza = false
  shlv : flag c l.shlv = false
  au : flag c l.au = false
  bu : flag c l.bu = false
  shrv : flag c l.shrv = false
  sepsham : flag c l.sepsham = false
  shrl : flag c l.shrl = false
  lures : flag c l.lures = false
  noclip : flag c l.noclip = false

theorem field_eq_zero {n : Nat} {c : Word} {places : Vector (Fin 32) n}
    (h : ∀ p ∈ places.toList, c.getLsbD p.val = false) : field c places = 0 := by
  refine List.sum_eq_zero fun v hv => ?_
  obtain ⟨i, -, rfl⟩ := List.mem_map.mp hv
  rw [h _ (by simp), if_neg (by simp)]

/-- The unused bits of a valid configuration word are clear (R381). -/
theorem getLsbD_unused {c : Word} (h : fxValid c) {p : Fin 32} (hp : fxUnusedMask.getLsbD p.val = true) :
    c.getLsbD p.val = false := by
  obtain ⟨hhigh, hmid, -⟩ := h
  have hzero := (unusedBits_eq_zero_iff c).mpr ⟨hhigh, hmid⟩
  have hbit : (c &&& fxUnusedMask).getLsbD p.val = false := by rw [hzero, BitVec.getLsbD_zero]
  rwa [BitVec.getLsbD_and, hp, Bool.and_true] at hbit

theorem not_strayBit_of_fxValid {l : T0Layout} {c : Word} (h : fxValid c) : ¬strayBit l c := by
  rintro ⟨p, hset, hp, -⟩
  exact Bool.false_ne_true ((getLsbD_unused h ((getLsbD_fxUnusedMask p).mpr hp)).symm.trans hset)

/-- A valid layout takes the T0-only fields from the unused bits (R401). -/
theorem t0OnlyZero_of_fxValid {l : T0Layout} {c : Word} (hl : layoutValid l = true) (h : fxValid c) :
    T0OnlyZero l c := by
  have hzero : ∀ p ∈ layoutPositions l, c.getLsbD p.val = false := by
    intro p hp
    obtain ⟨hmask, -⟩ := Bool.and_eq_true_iff.mp hl
    exact getLsbD_unused h (List.all_eq_true.mp hmask p hp)
  simp only [layoutPositions, List.forall_mem_append, List.forall_mem_cons] at hzero
  obtain ⟨⟨⟨hlufunc, hshram⟩, hwcond⟩, hshlza, hshlv, hau, hbu, hshrv, hsepsham, hshrl, hlures, hnoclip, -⟩ := hzero
  exact ⟨field_eq_zero hlufunc, field_eq_zero hshram, field_eq_zero hwcond, hshlza, hshlv, hau, hbu, hshrv, hsepsham,
    hshrl, hlures, hnoclip⟩

section
variable {l : T0Layout} {c : Word} (h : T0OnlyZero l c) (a b : Word)
include h

theorem not_mulStops_of_zero : ¬mulStops l c := by
  simp [mulStops, h.shlza, h.shlv, h.shrv, h.lures]

/-- The logic unit passes its second operand (R403). -/
theorem luOut_of_zero : luOut l c a b = b := by
  rw [luOut, h.lufunc]
  rfl

theorem toInt_shlOut_of_zero : (shlOut l c a b).toInt = (a.toInt * 2 ^ sham c + half c).bmod (2 ^ 32) := by
  rw [shlOut, h.shlv, h.shlza, if_neg (by simp), if_neg (by simp), BitVec.toInt_ofInt, half]

/-- ADDOUT is the exact value, which fits 33 bits (R386, R389, R392). -/
theorem addOut_of_zero (k : Fx) : addOut k l c a b = fxExact k c a b := by
  have hfits : (fxExact k c a b).bmod (2 ^ 33) = fxExact k c a b := by
    rw [← toInt_fxSum]
    exact BitVec.toInt_bmod_cancel _
  have hshl := toInt_shlOut_of_zero h a b
  rw [← hfits]
  cases k <;> simp [addOut, fxExact, number, halfNumber, addB, h.au, h.bu, h.shlv, h.shrv, luOut_of_zero h, hshl]

theorem shrOut_of_zero (v : Int) (lu : Word) : shrOut l c v lu = fxRounded c v := by
  simp [shrOut, fxRounded, h.shrv, h.sepsham, h.shrl]

theorem writesElem_of_zero (v : Int) : writesElem l c v = true := by
  rw [writesElem, h.wcond]
  rfl

/-- The pipeline of an element is the architectural one. -/
theorem t0Elem_of_zero (k : Fx) (ab : Word × Word) :
    let v := fxRounded c (fxExact k c ab.1 ab.2)
    t0Elem k l c ab = ((BitVec.ofInt 32 (clip (fxWidth c) v), decide (clip (fxWidth c) v ≠ v)), true) := by
  simp [t0Elem, clipOut, addOut_of_zero h, shrOut_of_zero h, writesElem_of_zero h, h.noclip, h.lures]

/-- Every element is written, so that its FLAG decides the vsat bit (R411, R412). -/
theorem fxResult_of_t0Result {s t : State} {k : Fx} {vw : VReg} {ops : Elem → Word × Word}
    (hres : t0Result s t k l vw ops c) : fxResult s t k vw ops c := by
  obtain ⟨helems, hvsat⟩ := hres
  simp only [t0Elem_of_zero h, if_true, true_imp_iff] at helems hvsat
  refine ⟨helems, fun e => ?_⟩
  obtain ⟨hkeeps, hsets, -⟩ := hvsat e
  by_cases hsat : e.val < s.vlr.toNat ∧ clip (fxWidth c) (fxRounded c (fxExact k c (ops e).1 (ops e).2)) ≠
      fxRounded c (fxExact k c (ops e).1 (ops e).2)
  · obtain ⟨hlt, hclip⟩ := hsat
    simp only [hsets hlt (decide_eq_true hclip), hlt, hclip, ne_eq, not_false_iff, and_self, decide_true, Bool.or_true]
  · rw [hkeeps ((not_and_or.mp hsat).imp Nat.not_lt.mp decide_eq_false), decide_eq_false hsat, Bool.or_false]

end

/-- Settles O59: by O60 the pipelines run, and by `fxResult_of_t0Result` their result is the architectural one. -/
theorem t0ReducesToArchitecture : Obligations.T0ReducesToArchitecture := by
  intro c f k hrow vw x y rd s l hr hl hlayout hvalid
  have hzero := t0OnlyZero_of_fxValid hlayout hvalid
  obtain ⟨hruns, -, -⟩ := t0PipelineResults c f k hrow vw x y rd s l hr hl
  obtain ⟨t, hx, hres, hrest⟩ := hruns (not_strayBit_of_fxValid hvalid) fun _ => not_mulStops_of_zero hzero
  exact ⟨t, hx, fxResult_of_t0Result hzero hres, hrest⟩

end Sys2Proof.T0PipelineRules
